-- ==== Sys2Proof/Word.lean ====
section
/-! DEFINITION. Bytes, record ids, and the fixed-size tables of records that every block keeps. -/

namespace Sys2Proof

/-- One byte of a console or link frame (R182). -/
abbrev Byte := BitVec 8

/-- A point id, 0 to 47 (R19). -/
abbrev PointId := Fin 48
/-- A body id, 0 to 11 (R1). -/
abbrev BodyId := Fin 12
/-- A position along the set, 0 to 11 (R1, R2). -/
abbrev Position := Fin 12
/-- A constraint id, 0 to 127 (R46). -/
abbrev ConstraintId := Fin 128
/-- A group number, 0 to 3 (R110). -/
abbrev GroupId := Fin 4
/-- A link number, 0 to 3 (R74). -/
abbrev LinkId := Fin 4
/-- A line number, 0 to 11 (R158). -/
abbrev LineId := Fin 12
/-- A node address field, 4 bits; a column has 1 to 15 (chapter 4). -/
abbrev NodeAddr := Fin 16

/-- The id that a number names, where it names one. -/
def fin? (n k : Nat) : Option (Fin n) := if h : k < n then some ⟨k, h⟩ else none

/-- A fixed-size table of records. -/
abbrev Table (α : Type) (n : Nat) := Vector α n

/-- The record at an id. -/
def Table.at {α : Type} {n : Nat} (t : Table α n) (i : Fin n) : α := t[i.val]

/-- The table with one record replaced. -/
def Table.put {α : Type} {n : Nat} (t : Table α n) (i : Fin n) (a : α) : Table α n := t.set i.val a

/-- The table with every record rewritten from its id and its value. -/
@[irreducible] def Table.mapAll {α β : Type} {n : Nat} (t : Table α n) (f : Fin n → α → β) : Table β n :=
  Vector.ofFn fun i => f i (t.at i)

/-- All ids of a table in ascending order. -/
def ids (n : Nat) : List (Fin n) := List.finRange n

/-- The low byte of a number. -/
def byte (n : Nat) : Byte := BitVec.ofNat 8 n

end Sys2Proof
end

