-- ==== Sys2Proof/Config.lean ====
section
/-! DEFINITION. What is fixed for the part (identity, defaults, times) and the one free value of the model. -/

namespace Sys2Proof.Config

/-- FREE VALUE (log 7). Where the spec sets no order among the blocks that take one event (R80, R133,
R150), the model takes the outcome of order number `freeOrder n`, counted modulo the orders there are,
at its `n`-th free choice. It has no body: nothing can be proved about which order is taken. -/
opaque freeOrder : Nat → Nat

/-- Part code of the identity record (R199). -/
def partCode : Nat := 2248
/-- Silicon revision of the identity record (R199). -/
def siliconRevision : Nat := 2
/-- The capacities of the identity record, in its order: points, bodies, constraints, groups, links,
lines (R199). -/
def capacities : List Nat := [48, 12, 128, 4, 4, 12]

/-- Microseconds in one second; the stage timeout is in seconds (R128). -/
def usPerSecond : Nat := 1000000
/-- Debounce time, 20 ms (R161). -/
def debounceUs : Nat := 20000
/-- Length of a LINK-RESET break, 1 ms (R90). -/
def breakUs : Nat := 1000
/-- The longest a compilation takes, 3 ms (R57). -/
def compileUs : Nat := 3000
/-- The start-up wait, 2 ms (R200). -/
def startUpWaitUs : Nat := 2000
/-- Length of a slot on a link (R76). -/
def slotUs : Nat := 400
/-- Length of the reply window (R76). -/
def replyWindowUs : Nat := 250
/-- Time of one byte on a link at 1 Mbit/s (R189). -/
def linkByteUs : Nat := 10
/-- The idle time after a stop bit at which the part recognises the end of a frame (R189). -/
def frameIdleUs : Nat := 30

/-- Default side limit of a body (R5). -/
def defaultSideLimit : Nat := 100
/-- Default end limit of a body (R5). -/
def defaultEndLimit : Nat := 300
/-- Default twist limit of a body (R5). -/
def defaultTwistLimit : Nat := 60

/-- The greatest height a node may report (R79, R86). -/
def maxHeight : Nat := 30000
/-- The greatest load a node may report (R79), and the value a greater rated capacity is recorded at (R26). -/
def maxLoad : Nat := 6000
/-- The value a greater rated stroke is recorded at (R26). -/
def maxStroke : Nat := 25000
/-- The least rated capacity of an accepted announce (R26, R86). -/
def minRatedCapacity : Nat := 100
/-- The least rated stroke of an accepted announce (R26, R86). -/
def minRatedStroke : Nat := 500
/-- The greatest magnitude of a travel (R110, R116). -/
def maxTravel : Nat := 25000
/-- The most ids a constraint index holds (R62). -/
def maxIndex : Nat := 8
/-- Probe attempts granted to a point (R27, R85). -/
def probeAttempts : Nat := 3
/-- Missed replies that make a LIVE point LOST (R81). -/
def missedToLose : Nat := 3

end Sys2Proof.Config
end

