-- ==== Sys2Proof/Syntax.lean ====
section
/-! DEFINITION. The commands of the part: one constructor of `Instr` for each row of
spec/opcode_table.json, with its operands. Requests carry numbers as the host sends them, so that each
request's own meaning makes its range checks (R176 stage 3). -/

namespace Sys2Proof

/-- A joint value (R4). -/
inductive Joint
  | none | open_ | closed
  deriving DecidableEq, Repr

/-- A corner of a body (R1, R19). -/
inductive Corner
  | ll | lr | tl | tr
  deriving DecidableEq, Repr

/-- The scope of the address selector (R178). -/
inductive Scope
  | one | body | group | all
  deriving DecidableEq, Repr

/-- The polarity of a line (R158). -/
inductive Polarity
  | activeHigh | activeLow
  deriving DecidableEq, Repr

/-- An electrical level at a pin (R158). -/
inductive Level
  | high | low
  deriving DecidableEq, Repr

/-- The parameter of a line (R158, R159). -/
inductive LineParameter
  | absent | all | group (g : GroupId)
  deriving DecidableEq, Repr

/-- A limit or warn percent operand: a value or DEFAULT (R5, R67, R182). -/
inductive OrDefault
  | value (n : Nat) | default_
  deriving DecidableEq, Repr

/-- What a request frame carries as operands: `takes ops`, or `illFormed` where the operand length is
not one the request takes or a code lies outside the values of its type (R173, R176, R183). -/
inductive Carried (α : Type)
  | takes (ops : α)
  | illFormed
  deriving DecidableEq, Repr

/-- SELECT's operands; `none` is *unchanged* (R178). -/
structure SelectOps where
  focus : Option Nat
  scope : Option Scope
  deriving DecidableEq, Repr

/-- A column address as the host gives it (R25). -/
structure AddressOp where
  link : Nat
  node : Nat
  deriving DecidableEq, Repr

/-- ENROL-POINT's operands (R25). -/
structure EnrolOps where
  point : Nat
  address : AddressOp
  deriving DecidableEq, Repr

/-- AMEND-POINT's operands, each given or not given (R40, R41). -/
structure AmendPointOps where
  address : Option AddressOp
  derated : Option Nat
  inhibit : Option Bool
  deriving DecidableEq, Repr

/-- FIND-POINT's operands: one of two forms (R45). -/
inductive FindOps
  | byAddress (a : AddressOp)
  | byCorner (body : Nat) (corner : Corner)
  deriving DecidableEq, Repr

/-- DEFINE-BODY's operands (R10). -/
structure DefineBodyOps where
  body : Nat
  position : Nat
  ll : Nat
  lr : Nat
  tl : Nat
  tr : Nat
  joint : Joint
  side : OrDefault
  end_ : OrDefault
  twist : OrDefault
  deriving DecidableEq, Repr

/-- AMEND-BODY's operands, each field given or not given (R12). -/
structure AmendBodyOps where
  body : Nat
  position : Option Nat
  joint : Option Joint
  ll : Option Nat
  lr : Option Nat
  tl : Option Nat
  tr : Option Nat
  side : Option OrDefault
  end_ : Option OrDefault
  twist : Option OrDefault
  deriving DecidableEq, Repr

/-- ADD-CONSTRAINT's operands (R67). -/
structure AddConstraintOps where
  terms : List Nat
  limit : Nat
  warn : OrDefault
  deriving DecidableEq, Repr

/-- AMEND-CONSTRAINT's operands (R69). -/
structure AmendConstraintOps where
  constraint : Nat
  limit : Option Nat
  warn : Option OrDefault
  deriving DecidableEq, Repr

/-- FORM-GROUP's operands (R113). -/
structure FormGroupOps where
  group : Nat
  bodies : List Nat
  deriving DecidableEq, Repr

/-- START's operands (R116). -/
structure StartOps where
  group : Nat
  travel : Int
  step : Nat
  gap : Nat
  deriving DecidableEq, Repr

/-- AMEND-TRAVEL's operands (R126). -/
structure AmendTravelOps where
  group : Nat
  travel : Int
  step : Option Nat
  deriving DecidableEq, Repr

/-- JOG's operands (R145). -/
structure JogOps where
  point : Nat
  distance : Int
  deriving DecidableEq, Repr

/-- SET-LINE's operands (R159, R168). -/
structure SetLineOps where
  line : Nat
  selector : Nat
  parameter : LineParameter
  polarity : Polarity
  deriving DecidableEq, Repr

/-- SET-OUTPUT's operands (R170). -/
structure SetOutputOps where
  line : Nat
  active : Bool
  deriving DecidableEq, Repr

/-- The ten fields of the site limits record, in its order; also SET-LIMITS's operands (R196, R197). -/
structure Limits where
  liftCeiling : Nat
  maxStep : Nat
  followWindow : Nat
  arrivalBand : Nat
  restBand : Nat
  contactLoad : Nat
  jointLimit : Nat
  warnPercent : Nat
  shareLimit : Nat
  stageTimeout : Nat
  deriving DecidableEq, Repr

/-- The fields of a REPLY frame (R79, R189). -/
structure ReplyFields where
  node : Nat
  height : Nat
  load : Nat
  flags : Byte
  deriving DecidableEq, Repr

/-- The fields of an ANNOUNCE frame (R86, R189). -/
structure AnnounceFields where
  node : Nat
  capacity : Nat
  stroke : Nat
  nodeClass : Nat
  height : Nat
  deriving DecidableEq, Repr

/-- The commands: one constructor for each row of spec/opcode_table.json, in the table's order. -/
inductive Instr
  | nop (ops : Carried Unit)
  | select (ops : Carried SelectOps)
  | partReset (ops : Carried Unit)
  | enrolPoint (ops : Carried EnrolOps)
  | bind (ops : Carried Nat)
  | retirePoint (ops : Carried Nat)
  | recaptureRest (ops : Carried Nat)
  | amendPoint (ops : Carried AmendPointOps)
  | readPoint (ops : Carried Unit)
  | findPoint (ops : Carried FindOps)
  | defineBody (ops : Carried DefineBodyOps)
  | amendBody (ops : Carried AmendBodyOps)
  | retireBody (ops : Carried Nat)
  | readBody (ops : Carried Nat)
  | addConstraint (ops : Carried AddConstraintOps)
  | amendConstraint (ops : Carried AmendConstraintOps)
  | retireConstraint (ops : Carried Nat)
  | readConstraint (ops : Carried Nat)
  | compile (ops : Carried Unit)
  | releasePlan (ops : Carried Unit)
  | readPlan (ops : Carried Unit)
  | formGroup (ops : Carried FormGroupOps)
  | start (ops : Carried StartOps)
  | continue_ (ops : Carried Nat)
  | amendTravel (ops : Carried AmendTravelOps)
  | hold (ops : Carried Nat)
  | resume (ops : Carried Nat)
  | disband (ops : Carried Nat)
  | readGroup (ops : Carried Nat)
  | jog (ops : Carried JogOps)
  | jogCancel (ops : Carried Unit)
  | stop (ops : Carried Unit)
  | clearStop (ops : Carried Unit)
  | readJog (ops : Carried Unit)
  | setLine (ops : Carried SetLineOps)
  | setOutput (ops : Carried SetOutputOps)
  | readLines (ops : Carried Unit)
  | linkReset (ops : Carried Nat)
  | readLink (ops : Carried Nat)
  | readAttention (ops : Carried Unit)
  | clearAttention (ops : Carried (BitVec 32))
  | setEnables (ops : Carried (BitVec 32))
  | setLimits (ops : Carried Limits)
  | lockLimits (ops : Carried Unit)
  | readLimits (ops : Carried Unit)
  | readIdentity (ops : Carried Unit)
  | unknown (code : Byte)
  | frameError (first : Byte)
  | transactionDuringWait
  | powerOn
  | startUpWaitEnd
  | poll (link : LinkId)
  | probe (link : LinkId)
  | allStop (link : LinkId)
  | reply (link : LinkId) (f : ReplyFields)
  | announce (link : LinkId) (f : AnnounceFields)
  | missedReply (link : LinkId)
  | probeUnanswered (link : LinkId)
  | ignoredFrame (link : LinkId)
  | breakStart (link : LinkId)
  | breakEnd (link : LinkId)
  | rawLevelChange (line : LineId) (level : Level)
  | debounceTimerExpiry (line : LineId)
  | stageTimerExpiry (group : GroupId)
  | jogTimerExpiry
  | compilationComplete
  | resetPinRelease
  deriving DecidableEq, Repr

end Sys2Proof
end

