-- ==== Sys2Proof/Machine/State.lean ====
section
/-! DEFINITION. The state of the part as plain data: every record the spec gives each block, the queue of
commands waiting, and the state after reset. -/

namespace Sys2Proof.Machine

/-- Why the machine stops with a fault. The spec names no event that stops the part: a request that
cannot act is answered with a status (R175). No constructor, so no meaning can fault; safe. -/
inductive Fault
  deriving DecidableEq, Repr

/-- Why a command has no meaning. -/
inductive Refusal
  /-- Raised only by an arm of `exec` whose command is not modelled; no arm raises it. Safe. -/
  | notModelled (mnemonic : String)
  deriving DecidableEq, Repr

/-! ### Points (chapter 2) -/

/-- The life of a point (R19, R21). -/
inductive PointLife
  | vacant | draft | bound | planned
  deriving DecidableEq, Repr

/-- The health of a point (R22). -/
inductive Health
  | unbound | live | lost
  deriving DecidableEq, Repr

/-- The bind outcome of a point (R23). -/
inductive BindOutcome
  | none | pending | bound | noAnswer
  deriving DecidableEq, Repr

/-- The permit of a point (R143). -/
inductive Permit
  | none | raise | lower | hold
  deriving DecidableEq, Repr

/-- A column address: link 0 to 3 and node 1 to 15 (R19). -/
structure Address where
  link : LinkId
  node : NodeAddr
  deriving DecidableEq, Repr

/-- The body and corner a point names; both present or both absent (R3). -/
structure Seat where
  body : BodyId
  corner : Corner
  deriving DecidableEq, Repr

/-- The node flags a column reports, as the mask of 9.5.4 lays them out (R29). -/
inductive NodeFlag
  | localStop | motorFault | strokeEnd | padContact
  deriving DecidableEq, Repr

/-- The conditions of a point (R102). -/
inductive Condition
  | overload | nodeStop | nodeFault | stroke
  deriving DecidableEq, Repr

/-- A point record (R19). `none` is *absent*. -/
structure Point where
  life : PointLife
  address : Option Address
  seat : Option Seat
  health : Health
  bindOutcome : BindOutcome
  ratedCapacity : Option Nat
  ratedStroke : Option Nat
  nodeClass : Option Nat
  derated : Option Nat
  rest : Option Nat
  height : Option Nat
  load : Option Nat
  flags : BitVec 4
  missed : Nat
  inhibit : Bool
  group : Option GroupId
  base : Option Nat
  target : Option Nat
  arrived : Bool
  followHeld : Bool
  permit : Permit
  conditions : BitVec 4
  index : List ConstraintId
  deriving DecidableEq, Repr

/-- A VACANT point record (R19, last column). -/
def Point.vacant : Point where
  life := .vacant
  address := none
  seat := none
  health := .unbound
  bindOutcome := .none
  ratedCapacity := none
  ratedStroke := none
  nodeClass := none
  derated := none
  rest := none
  height := none
  load := none
  flags := 0
  missed := 0
  inhibit := false
  group := none
  base := none
  target := none
  arrived := false
  followHeld := false
  permit := .none
  conditions := 0
  index := []

/-! ### Bodies (chapter 1) -/

/-- A DEFINED body record (R1). An EMPTY record is the absence of one. -/
structure Body where
  position : Position
  ll : PointId
  lr : PointId
  tl : PointId
  tr : PointId
  joint : Joint
  side : Nat
  end_ : Nat
  twist : Nat
  group : Option GroupId
  deriving DecidableEq, Repr

/-! ### Constraints and the plan (chapter 3) -/

/-- The kind of a constraint (R46). -/
inductive Kind
  | side | end_ | twist | joint | custom
  deriving DecidableEq, Repr

/-- The terms of a constraint, in order (R46, R47). -/
inductive Terms
  | two (a b : PointId)
  | four (a b c d : PointId)
  deriving DecidableEq, Repr

/-- The state of a constraint (R50). -/
inductive ConstraintState
  | idle | clear | warn | breach | blind
  deriving DecidableEq, Repr

/-- A non-EMPTY constraint record (R46). Its life is CUSTOM exactly when its kind is CUSTOM, and
DERIVED otherwise. -/
structure Constraint where
  kind : Kind
  terms : Terms
  limit : Nat
  warn : Nat
  state : ConstraintState
  last : Option Int
  origin : Option BodyId
  deriving DecidableEq, Repr

/-- The state of the plan (R52). -/
inductive PlanState
  | empty | drafted | compiling | compiled | inService
  deriving DecidableEq, Repr

/-- The outcome of a compilation (R51). -/
inductive PlanOutcome
  | none | success | notBound | jointOrphan | positionGap | termOutside | tableFull | indexFull
  deriving DecidableEq, Repr

/-- The offending record of an outcome (R51). -/
inductive Offending
  | point (p : PointId) | body (b : BodyId) | constraint (c : ConstraintId)
  deriving DecidableEq, Repr

/-- What a running compilation holds: the joint limit and warn percent taken at its acceptance, and the
time left of its 3 ms (R57). -/
structure Compilation where
  jointLimit : Nat
  warn : Nat
  left : Nat
  deriving DecidableEq, Repr

/-- The plan record (R51), with what a running compilation holds (R57). -/
structure Plan where
  state : PlanState
  outcome : PlanOutcome
  offending : Option Offending
  compilation : Option Compilation
  deriving DecidableEq, Repr

/-! ### Links (chapter 4) -/

/-- The state of a link (R75). -/
inductive LinkState
  | idle | running | resetting
  deriving DecidableEq, Repr

/-- A roster entry (R74). -/
structure RosterEntry where
  node : NodeAddr
  point : PointId
  goodRun : Nat
  deriving DecidableEq, Repr

/-- The exchange in flight: the message sent, the point and node it was sent for, and the mark that its
answer is to be discarded (R74, R83, R103; log 22). -/
inductive Exchange
  | poll (point : PointId) (node : NodeAddr) (permit : Permit) (target : Option Nat) (stop : Bool) (discard : Bool)
  | probe (point : PointId) (node : NodeAddr) (discard : Bool)
  | allStop
  deriving DecidableEq, Repr

/-- A link engine (R74), with the time left of the slot in progress (R76). Times are in microseconds. -/
structure Engine where
  link : LinkState
  roster : List RosterEntry
  cycle : Option NodeAddr
  queue : List PointId
  attempts : Nat
  stopPending : Bool
  exchange : Option Exchange
  slotLeft : Option Nat
  breakLeft : Option Nat
  deriving DecidableEq, Repr

/-- An engine at power-on (R74). -/
def Engine.powerOn : Engine where
  link := .idle
  roster := []
  cycle := none
  queue := []
  attempts := 0
  stopPending := false
  exchange := none
  slotLeft := none
  breakLeft := none

/-! ### Groups (chapter 6) -/

/-- The state of a group (R111). -/
inductive GroupState
  | free | formed | staging | gap | holding | arrived
  deriving DecidableEq, Repr

/-- A cause of a hold (R110, R129). -/
inductive HoldCause
  | host | line | stop | gate | breach | blind | overload | skew | nodeStop | nodeFault | stroke | lost | stall
  deriving DecidableEq, Repr

/-- The state a held group came from (R110). -/
inductive HeldFrom
  | staging | gap
  deriving DecidableEq, Repr

/-- The run fields of a group, present together (R110). -/
structure Run where
  travel : Int
  step : Nat
  gap : Nat
  count : Nat
  done : Nat
  completed : Nat
  deriving DecidableEq, Repr

/-- A group record (R110). The stage timer is in microseconds. -/
structure Group where
  state : GroupState
  members : List BodyId
  run : Option Run
  heldFrom : Option HeldFrom
  causes : BitVec 13
  timer : Option Nat
  deriving DecidableEq, Repr

/-- A FREE group (R110). -/
def Group.free : Group where
  state := .free
  members := []
  run := none
  heldFrom := none
  causes := 0
  timer := none

/-! ### Permit unit (chapter 7) -/

/-- How a jog ended (R142). -/
inductive JogOutcome
  | none | done | limit | stop | lost | fault | stall | cancelled
  deriving DecidableEq, Repr

/-- The fields of an ACTIVE jog, present together (R142). The timer is in microseconds. -/
structure ActiveJog where
  point : PointId
  distance : Int
  start : Nat
  timer : Nat
  deriving DecidableEq, Repr

/-- The jog slot: ACTIVE exactly while `active` is present (R142). -/
structure JogSlot where
  active : Option ActiveJog
  outcome : JogOutcome
  last : Option PointId
  deriving DecidableEq, Repr

/-! ### Lines (chapter 8) -/

/-- The function of a line (R158, R159). -/
inductive LineFunction
  | generalIn | generalOut | shedStop | pitGate | holdButton | continueButton | beacon | faultLamp | groupMoving
  deriving DecidableEq, Repr

/-- A line record (R158), with the level the part drives on its pin (R167; absent where it drives
none). The timer is in microseconds. -/
structure Line where
  function : LineFunction
  parameter : LineParameter
  polarity : Polarity
  debounced : Option Level
  timer : Option Nat
  output : Option Bool
  drive : Option Level
  deriving DecidableEq, Repr

/-- A line at power-on, its debounced level taken from the raw level (R158). -/
def Line.powerOn (l : LineId) (raw : Level) : Line where
  function := if l = 8 then .shedStop else .generalIn
  parameter := .absent
  polarity := if l = 8 then .activeLow else .activeHigh
  debounced := some raw
  timer := none
  output := none
  drive := none

/-! ### Attention, limits, port (chapters 9 and 10) -/

/-- An attention flag (R191). -/
inductive Flag
  | stop | plan | bind | lost | found | breach | warn | load | line | jog
  | stage (g : GroupId) | gap (g : GroupId) | arrived (g : GroupId) | held (g : GroupId)
  deriving DecidableEq, Repr

/-- The attention unit: flags and enables as the masks of 9.5.4, and whether ATTN is asserted (R191, R192). -/
structure Attention where
  flags : BitVec 26
  enables : BitVec 26
  attn : Bool
  deriving DecidableEq, Repr

/-- The default site limits (R196). -/
def defaultLimits : Limits where
  liftCeiling := 18000
  maxStep := 100
  followWindow := 30
  arrivalBand := 5
  restBand := 20
  contactLoad := 50
  jointLimit := 40
  warnPercent := 80
  shareLimit := 60
  stageTimeout := 30

/-- A status (R175). -/
inductive Status
  | done | accepted | busy | refusedState | refusedRange | refusedLocked | refusedFull | conflict
  | notFound | unknown | frameError
  deriving DecidableEq, Repr

/-- A response: status, echoed request code and payload (R174). -/
structure Response where
  status : Status
  code : Byte
  payload : List Byte
  deriving DecidableEq, Repr

/-- What the part clocks out in the latest transaction: nothing yet, a response frame followed by 00h
(R172), or FFh for every byte (R200). -/
inductive DataOut
  | nothing
  | frame (r : Response)
  | filler
  deriving DecidableEq, Repr

/-- The console port: address selector, last response, data-out (R172, R174, R178). -/
structure Port where
  focus : PointId
  scope : Scope
  last : Response
  out : DataOut
  deriving DecidableEq, Repr

/-- The reset pin and the start-up wait: pin asserted, wait with the microseconds left, working (R200). -/
inductive Phase
  | held
  | waiting (left : Nat)
  | running
  deriving DecidableEq, Repr

/-! ### The state -/

/-- The state of the part, one field a block, the raw levels at the pins, and the model's own queue
and choice counter. -/
structure State where
  points : Table Point 48
  bodies : Table (Option Body) 12
  constraints : Table (Option Constraint) 128
  plan : Plan
  links : Table Engine 4
  skew : Table Bool 12
  groups : Table Group 4
  jog : JogSlot
  stop : Bool
  lines : Table Line 12
  pins : Table Level 12
  attention : Attention
  limits : Limits
  limitsLock : Bool
  port : Port
  phase : Phase
  pending : List Instr
  choices : Nat
  deriving DecidableEq, Repr

/-- The last response at power-on: DONE, echoed code NOP, no payload (R174). -/
def Response.powerOn : Response := ⟨.done, 0x00, []⟩

/-- Every record at its power-on value, for given raw levels; site limits and their lock are given
apart, since PART-RESET keeps them (R181, R196, R200). The stop latch and the STOP flag are set (R153, R191). -/
def State.initial (pins : Table Level 12) (limits : Limits) (lock : Bool) (phase : Phase) (out : DataOut)
    (pending : List Instr) (choices : Nat) : State where
  points := Vector.replicate 48 Point.vacant
  bodies := Vector.replicate 12 none
  constraints := Vector.replicate 128 none
  plan := ⟨.empty, .none, none, none⟩
  links := Vector.replicate 4 Engine.powerOn
  skew := Vector.replicate 12 false
  groups := Vector.replicate 4 Group.free
  jog := ⟨none, .none, none⟩
  stop := true
  lines := pins.mapAll Line.powerOn
  pins := pins
  attention := ⟨1, 0, false⟩
  limits := limits
  limitsLock := lock
  port := ⟨0, .one, Response.powerOn, out⟩
  phase := phase
  pending := pending
  choices := choices

/-- The raw levels at reset: line 8 high, as a healthy stop loop holds it (chapter 11), every other
line low. DESIGN CHOICE (log 2). -/
def resetPins : Table Level 12 := (Vector.replicate 12 Level.low).set 8 Level.high

/-- The machine right after reset: the moment the start-up wait ends (R200; log 1). -/
def State.reset : State :=
  State.initial resetPins defaultLimits false .running .nothing [] 0

end Sys2Proof.Machine
end

