-- ==== Sys2Proof/Machine/Flags.lean ====
section
/-! DEFINITION. The sets of the part as masks (9.5.4): node flags, conditions, hold causes, attention
flags; how a member joins, leaves and is tested; and the enumeration codes of R182. -/

namespace Sys2Proof.Machine

/-- Bit `i` of a mask with the other bits kept, set. -/
def insertBit {n : Nat} (m : BitVec n) (i : Nat) : BitVec n := m ||| BitVec.twoPow n i

/-- Bit `i` of a mask, cleared. -/
def eraseBit {n : Nat} (m : BitVec n) (i : Nat) : BitVec n := m &&& ~~~ BitVec.twoPow n i

/-- A node flag's bit (R187). -/
def NodeFlag.bit : NodeFlag → Nat
  | .localStop => 0 | .motorFault => 1 | .strokeEnd => 2 | .padContact => 3

/-- A condition's bit (R187). -/
def Condition.bit : Condition → Nat
  | .overload => 0 | .nodeStop => 1 | .nodeFault => 2 | .stroke => 3

/-- A hold cause's bit (R187). -/
def HoldCause.bit : HoldCause → Nat
  | .host => 0 | .line => 1 | .stop => 2 | .gate => 3 | .breach => 4 | .blind => 5 | .overload => 6
  | .skew => 7 | .nodeStop => 8 | .nodeFault => 9 | .stroke => 10 | .lost => 11 | .stall => 12

/-- An attention flag's bit (R187). -/
def Flag.bit : Flag → Nat
  | .stop => 0 | .plan => 1 | .bind => 2 | .lost => 3 | .found => 4 | .breach => 5 | .warn => 6
  | .load => 7 | .line => 8 | .jog => 9
  | .stage g => 10 + 4 * g.val | .gap g => 11 + 4 * g.val
  | .arrived g => 12 + 4 * g.val | .held g => 13 + 4 * g.val

/-- The four conditions, in their order (R146). -/
def allConditions : List Condition := [.overload, .nodeStop, .nodeFault, .stroke]

/-- The thirteen hold causes, in the order of their bits. -/
def allCauses : List HoldCause :=
  [.host, .line, .stop, .gate, .breach, .blind, .overload, .skew, .nodeStop, .nodeFault, .stroke, .lost, .stall]

/-- The hold cause of the same name as a condition (R102). -/
def Condition.cause : Condition → HoldCause
  | .overload => .overload | .nodeStop => .nodeStop | .nodeFault => .nodeFault | .stroke => .stroke

/-- A node flag is in a point's flags. -/
def Point.hasFlag (x : Point) (f : NodeFlag) : Bool := x.flags.getLsbD f.bit

/-- A condition is present on a point. -/
def Point.hasCondition (x : Point) (c : Condition) : Bool := x.conditions.getLsbD c.bit

/-- A cause is among a group's hold causes. -/
def Group.hasCause (x : Group) (c : HoldCause) : Bool := x.causes.getLsbD c.bit

/-- An attention flag is set. -/
def Attention.isSet (a : Attention) (f : Flag) : Bool := a.flags.getLsbD f.bit

/-- ATTN's condition: some flag is both set and enabled (R192). -/
def Attention.calls (a : Attention) : Bool := a.flags &&& a.enables != 0

/-- A source sets a flag; a flag already set stays set (R191). -/
def State.raiseFlag (s : State) (f : Flag) : State :=
  { s with attention := { s.attention with flags := insertBit s.attention.flags f.bit } }

/-! ### Codes of enumerations (R182: numbered from 0 in the order of the record table) -/

def PointLife.code : PointLife → Nat
  | .vacant => 0 | .draft => 1 | .bound => 2 | .planned => 3
def Health.code : Health → Nat
  | .unbound => 0 | .live => 1 | .lost => 2
def BindOutcome.code : BindOutcome → Nat
  | .none => 0 | .pending => 1 | .bound => 2 | .noAnswer => 3
def Permit.code : Permit → Nat
  | .none => 0 | .raise => 1 | .lower => 2 | .hold => 3
def Kind.code : Kind → Nat
  | .side => 0 | .end_ => 1 | .twist => 2 | .joint => 3 | .custom => 4
/-- The code of a non-EMPTY record's life: DERIVED 1, CUSTOM 2 (R46). -/
def Kind.lifeCode : Kind → Nat
  | .custom => 2 | .side => 1 | .end_ => 1 | .twist => 1 | .joint => 1
def ConstraintState.code : ConstraintState → Nat
  | .idle => 0 | .clear => 1 | .warn => 2 | .breach => 3 | .blind => 4
/-- DESIGN CHOICE (log 11): R182 numbers an enumeration by its record table, and R51's table lists no
plan states; this is the order in which R50 names all five. -/
def PlanState.code : PlanState → Nat
  | .empty => 0 | .drafted => 1 | .compiling => 2 | .compiled => 3 | .inService => 4
def PlanOutcome.code : PlanOutcome → Nat
  | .none => 0 | .success => 1 | .notBound => 2 | .jointOrphan => 3 | .positionGap => 4
  | .termOutside => 5 | .tableFull => 6 | .indexFull => 7
def LinkState.code : LinkState → Nat
  | .idle => 0 | .running => 1 | .resetting => 2
def GroupState.code : GroupState → Nat
  | .free => 0 | .formed => 1 | .staging => 2 | .gap => 3 | .holding => 4 | .arrived => 5
/-- DEDUCED (log 29): the two values held-from takes, in the order R110 lists them. -/
def HeldFrom.code : HeldFrom → Nat
  | .staging => 0 | .gap => 1
def JogOutcome.code : JogOutcome → Nat
  | .none => 0 | .done => 1 | .limit => 2 | .stop => 3 | .lost => 4 | .fault => 5 | .stall => 6 | .cancelled => 7
/-- The selector number of a function (R159). -/
def LineFunction.code : LineFunction → Nat
  | .generalIn => 0 | .generalOut => 1 | .shedStop => 2 | .pitGate => 3 | .holdButton => 4
  | .continueButton => 5 | .beacon => 6 | .faultLamp => 7 | .groupMoving => 8
/-- The code of a status (R185). -/
def Status.code : Status → Nat
  | .done => 0x00 | .accepted => 0x01 | .busy => 0x02 | .refusedState => 0x10 | .refusedRange => 0x11
  | .refusedLocked => 0x12 | .refusedFull => 0x13 | .conflict => 0x14 | .notFound => 0x20
  | .unknown => 0x30 | .frameError => 0x31

end Sys2Proof.Machine
end

