-- ==== Sys2Proof/Machine/Operands.lean ====
section
/-! DEFINITION. Operand forms: the static range checks of each request (R176 stage 3, R183), the values
that operands name, and the function menu of the lines (R159). -/

namespace Sys2Proof

/-- `n` lies between `lo` and `hi`, ends included. -/
def within (lo hi n : Nat) : Bool := lo ≤ n && n ≤ hi

/-- A column address: link 0 to 3 and node 1 to 15 (R25, R183). -/
def AddressOp.ok (a : AddressOp) : Bool := a.link < 4 && within 1 15 a.node

/-- A body limit operand: 1 to 2,000 or DEFAULT (R5, R10). -/
def bodyLimitOk : OrDefault → Bool
  | .value n => within 1 2000 n
  | .default_ => true

/-- The limit an operand writes, DEFAULT replaced by `d` (R5). -/
def OrDefault.get (d : Nat) : OrDefault → Nat
  | .value n => n
  | .default_ => d

/-- A warn percent operand: 50 to 100 or DEFAULT (R67, R69). -/
def warnOk : OrDefault → Bool
  | .value n => within 50 100 n
  | .default_ => true

/-- The members of a list are pairwise distinct. -/
def distinct : List Nat → Bool
  | [] => true
  | a :: l => !l.contains a && distinct l

/-- SELECT: focus 0 to 47 or unchanged (R178). -/
def SelectOps.ok (o : SelectOps) : Bool := o.focus.all (· < 48)

/-- ENROL-POINT's ranges (R25). -/
def EnrolOps.ok (o : EnrolOps) : Bool := o.point < 48 && AddressOp.ok o.address

/-- FIND-POINT's ranges (R45). -/
def FindOps.ok : FindOps → Bool
  | .byAddress a => AddressOp.ok a
  | .byCorner b _ => b < 12

/-- AMEND-POINT's ranges that rest on the operands alone: some field given, the address in range and
given without a derating, the derating 1 to 6,000 (R40, R41). -/
def AmendPointOps.ok (o : AmendPointOps) : Bool :=
  (o.address.isSome || o.derated.isSome || o.inhibit.isSome)
    && o.address.all AddressOp.ok
    && !(o.address.isSome && o.derated.isSome)
    && o.derated.all (within 1 Config.maxLoad)

/-- DEFINE-BODY's ranges (R10). -/
def DefineBodyOps.ok (o : DefineBodyOps) : Bool :=
  o.body < 12 && o.position < 12
    && [o.ll, o.lr, o.tl, o.tr].all (· < 48)
    && distinct [o.ll, o.lr, o.tl, o.tr]
    && (o.position != 0 || o.joint == .none)
    && bodyLimitOk o.side && bodyLimitOk o.end_ && bodyLimitOk o.twist

/-- Some field is given (R12). -/
def AmendBodyOps.given (o : AmendBodyOps) : Bool :=
  o.position.isSome || o.joint.isSome || o.ll.isSome || o.lr.isSome || o.tl.isSome || o.tr.isSome
    || o.side.isSome || o.end_.isSome || o.twist.isSome

/-- AMEND-BODY's ranges that rest on the operands alone (R12). -/
def AmendBodyOps.ok (o : AmendBodyOps) : Bool :=
  o.body < 12 && o.given
    && o.position.all (· < 12)
    && o.ll.all (· < 48) && o.lr.all (· < 48) && o.tl.all (· < 48) && o.tr.all (· < 48)
    && o.side.all bodyLimitOk && o.end_.all bodyLimitOk && o.twist.all bodyLimitOk

/-- ADD-CONSTRAINT's ranges (R67). -/
def AddConstraintOps.ok (o : AddConstraintOps) : Bool :=
  (o.terms.length == 2 || o.terms.length == 4)
    && o.terms.all (· < 48) && distinct o.terms
    && within 1 2000 o.limit && warnOk o.warn

/-- AMEND-CONSTRAINT's ranges (R69). -/
def AmendConstraintOps.ok (o : AmendConstraintOps) : Bool :=
  o.constraint < 128 && (o.limit.isSome || o.warn.isSome)
    && o.limit.all (within 1 2000) && o.warn.all warnOk

/-- FORM-GROUP's ranges (R113). -/
def FormGroupOps.ok (o : FormGroupOps) : Bool :=
  o.group < 4 && within 1 12 o.bodies.length && o.bodies.all (· < 12) && distinct o.bodies

/-- A travel: not 0, magnitude at most 25,000 (R116, R126). -/
def travelOk (t : Int) : Bool := t != 0 && t.natAbs ≤ Config.maxTravel

/-- START's first four range checks; `maxStep` is the site limit held (R116). -/
def StartOps.ok (maxStep : Nat) (o : StartOps) : Bool :=
  o.group < 4 && travelOk o.travel && within 10 maxStep o.step && within 0 64 o.gap

/-- AMEND-TRAVEL's first three range checks (R126). -/
def AmendTravelOps.ok (maxStep : Nat) (o : AmendTravelOps) : Bool :=
  o.group < 4 && travelOk o.travel && o.step.all (within 10 maxStep)

/-- JOG's first two range checks (R145). -/
def JogOps.ok (maxStep : Nat) (o : JogOps) : Bool :=
  o.point < 48 && o.distance != 0 && o.distance.natAbs ≤ maxStep

/-- The ranges of the ten site limits (R196, R197). -/
def Limits.ok (l : Limits) : Bool :=
  within 100 25000 l.liftCeiling && within 10 500 l.maxStep && within 5 200 l.followWindow
    && within 1 50 l.arrivalBand && within 5 100 l.restBand && within 10 500 l.contactLoad
    && within 5 500 l.jointLimit && within 50 100 l.warnPercent && within 30 90 l.shareLimit
    && within 1 255 l.stageTimeout

/-! ### Codes of operand values (R182: numbered from 0 in the order of the record table) -/

/-- A two-valued field (R182). -/
def boolCode (b : Bool) : Nat := if b then 1 else 0
/-- The code of a corner (R182, R19). -/
def Corner.code : Corner → Nat
  | .ll => 0 | .lr => 1 | .tl => 2 | .tr => 3
/-- The code of a joint (R182, R1). -/
def Joint.code : Joint → Nat
  | .none => 0 | .open_ => 1 | .closed => 2
/-- The code of a line parameter (R186: group, 04h for ALL, FFh none). -/
def LineParameter.code : LineParameter → Nat
  | .group g => g.val | .all => 4 | .absent => 0xFF
/-- The code of a polarity (R182: 1 for active low). -/
def Polarity.code : Polarity → Nat
  | .activeHigh => 0 | .activeLow => 1
/-- The code of a level. DEDUCED (log 15): an enumeration in the order of R158's row, high then low. -/
def Level.code : Level → Nat
  | .high => 0 | .low => 1
/-- The code of a scope. DEDUCED (log 37): R178 has no record table, so the order of its list 'one of ONE, BODY, GROUP and
ALL' is taken for the order that R182 numbers by. -/
def Scope.code : Scope → Nat
  | .one => 0 | .body => 1 | .group => 2 | .all => 3

end Sys2Proof
end

