-- ==== Sys2Proof/Machine/Ops.lean ====
section
/-! DEFINITION. The shared operations on the records: reading and writing them, lift and raised, the
order of the set, permits and outputs, hold claims, the stop latch, the end of a jog, stages, the plan's
fall, and a point's place on its link. -/

namespace Sys2Proof.Machine

/-! ### Reading and writing records -/

def State.point (s : State) (p : PointId) : Point := s.points.at p
def State.body (s : State) (b : BodyId) : Option Body := s.bodies.at b
def State.constraint (s : State) (c : ConstraintId) : Option Constraint := s.constraints.at c
def State.engine (s : State) (l : LinkId) : Engine := s.links.at l
def State.group (s : State) (g : GroupId) : Group := s.groups.at g
def State.line (s : State) (l : LineId) : Line := s.lines.at l

def State.setPoint (s : State) (p : PointId) (x : Point) : State := { s with points := s.points.put p x }
def State.setBody (s : State) (b : BodyId) (x : Option Body) : State := { s with bodies := s.bodies.put b x }
def State.setConstraint (s : State) (c : ConstraintId) (x : Option Constraint) : State :=
  { s with constraints := s.constraints.put c x }
def State.setEngine (s : State) (l : LinkId) (x : Engine) : State := { s with links := s.links.put l x }
def State.setGroup (s : State) (g : GroupId) (x : Group) : State := { s with groups := s.groups.put g x }
def State.setLine (s : State) (l : LineId) (x : Line) : State := { s with lines := s.lines.put l x }
def State.setSkew (s : State) (b : BodyId) (x : Bool) : State := { s with skew := s.skew.put b x }

/-- Every point record rewritten from its id and value. -/
def State.mapPoints (s : State) (f : PointId → Point → Point) : State :=
  { s with points := s.points.mapAll f }

/-- Every DEFINED body record rewritten from its id and value. -/
def State.mapBodies (s : State) (f : BodyId → Body → Body) : State :=
  { s with bodies := s.bodies.mapAll fun b x => x.map (f b) }

/-! ### Lift, raised, grounded (R6, R7) -/

/-- The lift of a point: reported height minus rest height, absent where either is (R6). -/
def Point.lift (x : Point) : Option Int :=
  match x.height, x.rest with
  | some h, some r => some ((h : Int) - (r : Int))
  | _, _ => none

/-- A point is raised when its reported height exceeds its rest height plus the rest band (R7). -/
def Point.raised (band : Nat) (x : Point) : Bool :=
  match x.lift with
  | some v => (band : Int) < v
  | none => false

/-- Whether a point is raised now (R7). -/
def State.raised (s : State) (p : PointId) : Bool := (s.point p).raised s.limits.restBand

/-! ### Bodies and the order of the set (R2, R3, R4) -/

/-- The point under a corner (R1). -/
def Body.corner (x : Body) : Corner → PointId
  | .ll => x.ll | .lr => x.lr | .tl => x.tl | .tr => x.tr

/-- The four corners in their order. -/
def allCorners : List Corner := [.ll, .lr, .tl, .tr]

/-- The corner points in the order LL, LR, TL, TR. -/
def Body.corners (x : Body) : List PointId := [x.ll, x.lr, x.tl, x.tr]

/-- The DEFINED body at a position (R2). -/
def State.bodyAt (s : State) (pos : Nat) : Option (BodyId × Body) :=
  (ids 12).findSome? fun b =>
    match s.body b with
    | some x => if x.position.val = pos then some (b, x) else none
    | none => none

/-- The leading neighbour: the DEFINED body at the next lower position (R2). -/
def State.leadingNeighbour (s : State) (x : Body) : Option (BodyId × Body) :=
  if x.position.val = 0 then none else s.bodyAt (x.position.val - 1)

/-- The trailing neighbour: the DEFINED body at the next higher position (R2). -/
def State.trailingNeighbour (s : State) (x : Body) : Option (BodyId × Body) := s.bodyAt (x.position.val + 1)

/-- The trailing joint: the leading joint of the trailing neighbour, or NONE (R4). -/
def State.trailingJoint (s : State) (x : Body) : Joint :=
  match s.trailingNeighbour x with
  | some (_, y) => y.joint
  | none => .none

/-- The DEFINED bodies in ascending position. -/
def State.bodiesInOrder (s : State) : List (BodyId × Body) := (ids 12).filterMap fun pos => s.bodyAt pos.val

/-- A body is raised when any of its corners is (R7). -/
def State.bodyRaised (s : State) (x : Body) : Bool := x.corners.any s.raised

/-- Some body is DEFINED. -/
def State.anyBody (s : State) : Bool := (ids 12).any fun b => (s.body b).isSome

/-! ### Groups -/

/-- The lowest group that is not FREE (R8, R56, R67, R70, R73, R89). -/
def State.busyGroup (s : State) : Option GroupId := (ids 4).find? fun g => (s.group g).state != .free

/-- The corner points of the bodies of a list, in ascending id. -/
def State.cornersOf (s : State) (bs : List BodyId) : List PointId :=
  (ids 48).filter fun p =>
    bs.any fun b =>
      match s.body b with
      | some x => x.corners.contains p
      | none => false

/-- The member points of a group: the corners of its member bodies, in ascending id (R110). -/
def State.members (s : State) (g : GroupId) : List PointId := s.cornersOf (s.group g).members

/-- The direction of a signed height: its sign. -/
def direction (d : Int) : Int := d.sign

/-- The target progress of the stage that follows the completed ones (R119). -/
def Run.targetProgress (r : Run) : Nat := min (r.completed + r.step) r.travel.natAbs

/-- The progress of a member point (R121). -/
def Point.progress (travel : Int) (x : Point) : Int :=
  ((x.height.getD 0 : Int) - (x.base.getD 0 : Int)) * direction travel

/-- The highest height a point's stage or jog target may take: rest height plus the lesser of the rated
stroke and the lift ceiling (R32, R119). -/
def Point.ceiling (liftCeiling : Nat) (x : Point) : Option Nat :=
  match x.rest, x.ratedStroke with
  | some r, some k => some (r + min k liftCeiling)
  | _, _ => none

/-- A target lies within rest height and the point's ceiling (R32, R119). -/
def Point.targetOk (liftCeiling : Nat) (x : Point) (t : Int) : Bool :=
  match x.rest, x.ceiling liftCeiling with
  | some r, some c => (r : Int) ≤ t && t ≤ (c : Int)
  | _, _ => false

/-! ### Lines (R159, R160) -/

/-- Whether a function's direction is input (R159). -/
def LineFunction.isInput : LineFunction → Bool
  | .generalIn => true | .generalOut => false | .shedStop => true | .pitGate => true | .holdButton => true
  | .continueButton => true | .beacon => false | .faultLamp => false | .groupMoving => false

/-- The level a polarity names as active. -/
def Polarity.active : Polarity → Level
  | .activeHigh => .high | .activeLow => .low

/-- The other level. -/
def Level.other : Level → Level
  | .high => .low | .low => .high

/-- An input line is asserted when its debounced level is the active one (R160). -/
def Line.asserted (x : Line) : Bool := x.function.isInput && x.debounced == some (Polarity.active x.polarity)

/-- The lowest asserted line of a function (R117, R146, R157, R159). -/
def State.assertedLine (s : State) (f : LineFunction) : Option LineId :=
  (ids 12).find? fun l => (s.line l).function == f && (s.line l).asserted

/-- A HOLD_BUTTON line whose parameter is the group or ALL is asserted (R131, R159). -/
def State.holdButtonAsserted (s : State) (g : GroupId) : Bool :=
  (ids 12).any fun l =>
    let x := s.line l
    x.function == .holdButton && x.asserted && (x.parameter == .group g || x.parameter == .all)

/-! ### Permits, outputs, ATTN: the derived fields (R143, R167, R192) -/

/-- HOLD where the point is raised, NONE where it is grounded (R143, rows 2 and 5). -/
def restPermit (raised : Bool) : Permit := if raised then .hold else .none

/-- RAISE for a positive distance or travel, LOWER otherwise (R143, rows 3 and 4). -/
def motionPermit (d : Int) : Permit := if 0 < d then .raise else .lower

/-- The permit of a point: the first row of R143's table that applies. -/
def State.permitOf (s : State) (p : PointId) (x : Point) : Permit :=
  let rest := restPermit (x.raised s.limits.restBand)
  if x.life == .vacant || x.life == .draft then .none
  else if s.stop || x.inhibit || x.health == .lost then rest
  else
    match s.jog.active with
    | some j => if j.point = p then motionPermit j.distance else groupRow rest
    | none => groupRow rest
where
  /-- Rows 4 and 5 of R143's table. -/
  groupRow (rest : Permit) : Permit :=
    match x.group with
    | some g =>
      match (s.group g).run with
      | some r =>
        if (s.group g).state == .staging && !x.arrived && !x.followHeld then motionPermit r.travel else rest
      | none => rest
    | none => rest

/-- Whether an output line's condition holds (R167). -/
def State.outputActive (s : State) (x : Line) : Bool :=
  match x.function with
  | .generalOut => x.output == some true
  | .beacon => (ids 4).any (fun g => (s.group g).state == .staging) || s.jog.active.isSome
  | .faultLamp => (ids 4).any (fun g => (s.group g).state == .holding) || s.stop
  | .groupMoving =>
    match x.parameter with
    | .group g => (s.group g).state == .staging
    | .all => false
    | .absent => false
  | .generalIn => false | .shedStop => false | .pitGate => false | .holdButton => false | .continueButton => false

/-- The level driven on a line's pin: none on an input line (R167). -/
def State.driveOf (s : State) (x : Line) : Option Level :=
  if x.function.isInput then none
  else some (if s.outputActive x then Polarity.active x.polarity else Level.other (Polarity.active x.polarity))

/-- Every derived field at the value its rule gives for the records as they stand: each permit (R143, R144),
each driven level (R167) and ATTN (R192). Every command that changes records ends with it (log 24). -/
def State.settle (s : State) : State :=
  { s with
    points := s.points.mapAll fun p x => { x with permit := s.permitOf p x }
    lines := s.lines.mapAll fun _ x => { x with drive := s.driveOf x }
    attention := { s.attention with attn := s.attention.calls } }

/-! ### Free order among blocks (R80, R133, R150) -/

/-- The outcome of one of several orders the spec leaves open: where they all end alike, that end, and
otherwise the one the free value picks (log 7). -/
def chooseOrder (first : State) (others : List State) : State :=
  if others.all (· = first) then first
  else
    let all := first :: others
    let pick := Config.freeOrder first.choices % all.length
    { (all.getD pick first) with choices := first.choices + 1 }

/-! ### Hold claims (R129) -/

/-- A hold claim on a group with a cause, taken by the group's state (R129). -/
def State.claim (s : State) (g : GroupId) (c : HoldCause) : State :=
  let x := s.group g
  let held (from_ : HeldFrom) : State :=
    (s.setGroup g { x with state := .holding, heldFrom := some from_, causes := insertBit x.causes c.bit }).raiseFlag (.held g)
  match x.state with
  | .staging => held .staging
  | .gap => held .gap
  | .holding => s.setGroup g { x with causes := insertBit x.causes c.bit }
  | .free => s
  | .formed => s
  | .arrived => s

/-- A claim on every group in STAGING, GAP or HOLDING; on the others a claim has no effect (R129). -/
def State.claimAll (s : State) (c : HoldCause) : State := (ids 4).foldl (fun t g => t.claim g c) s

/-- A claim on the group that a field names, where it names one. -/
def State.claimOn (s : State) (g : Option GroupId) (c : HoldCause) : State :=
  match g with
  | some g => s.claim g c
  | none => s

/-! ### The end of a jog (R149) -/

/-- The jog, where ACTIVE, ends with an outcome; a notice taken while IDLE has no effect (R149). -/
def State.endJog (s : State) (o : JogOutcome) : State :=
  match s.jog.active with
  | none => s
  | some j =>
    let s1 := { s with jog := ⟨none, o, some j.point⟩ }
    (s1.setPoint j.point { s1.point j.point with target := none }).raiseFlag .jog

/-- A jog notice about a point: it ends the jog of that point (R97, R105, R149). -/
def State.jogNotice (s : State) (p : PointId) (o : JogOutcome) : State :=
  match s.jog.active with
  | some j => if j.point = p then s.endJog o else s
  | none => s

/-! ### The stop latch (R155) -/

/-- A stop notice at an engine: stop pending where RUNNING or RESETTING, discarded where IDLE (R87). -/
def Engine.stopNotice (e : Engine) : Engine :=
  match e.link with
  | .idle => e
  | .running => { e with stopPending := true }
  | .resetting => { e with stopPending := true }

/-- The setting of the stop latch with its effects; the permits follow when the event settles (R155). -/
def State.setLatch (s : State) : State :=
  let s1 := { s with stop := true }
  let s2 := s1.claimAll .stop
  let s3 := s2.endJog .stop
  let s4 := { s3 with links := s3.links.mapAll fun _ e => e.stopNotice }
  s4.raiseFlag .stop

/-! ### Stages (R119, R122, R124) -/

/-- The stage that follows the completed ones starts (R119). -/
def State.startStage (s : State) (g : GroupId) : State :=
  match (s.group g).run with
  | none => s
  | some r =>
    let members := s.members g
    let s1 := s.mapPoints fun p x =>
      if members.contains p then
        { x with
          target := some ((x.base.getD 0 : Int) + direction r.travel * (r.targetProgress : Int)).toNat
          arrived := false
          followHeld := false }
      else x
    s1.setGroup g { s1.group g with
      state := .staging
      timer := some (s.limits.stageTimeout * Config.usPerSecond) }

/-- The member points of a group that have not arrived. -/
def State.notArrived (s : State) (g : GroupId) : List PointId :=
  (s.members g).filter fun p => !(s.point p).arrived

/-- The least progress among the members not yet arrived (R122). -/
def State.leastProgress (s : State) (g : GroupId) (travel : Int) : Option Int :=
  ((s.notArrived g).map fun p => (s.point p).progress travel).min?

/-- A member's follow-held flag after an evaluation, from the flag it has and its excess (R122). -/
def followAfter (window : Nat) (held : Bool) (excess : Int) : Bool :=
  if held then !decide (2 * excess ≤ (window : Int)) else decide ((window : Int) < excess)

/-- The follow holding of a group's members is evaluated: a non-arrived member against the slowest of them, and an
arrived member is never follow-held (R122). -/
def State.evalFollow (s : State) (g : GroupId) : State :=
  match (s.group g).run with
  | none => s
  | some r =>
    let members := s.members g
    let least := s.leastProgress g r.travel
    s.mapPoints fun p x =>
      if members.contains p then
        { x with
          followHeld := !x.arrived
            && least.any fun m => followAfter s.limits.followWindow x.followHeld (x.progress r.travel - m) }
      else x

/-- Every member point has arrived. -/
def State.allArrived (s : State) (g : GroupId) : Bool := (s.members g).all fun p => (s.point p).arrived

/-- A stage completes (R124). -/
def State.completeStage (s : State) (g : GroupId) : State :=
  let x := s.group g
  match x.run with
  | none => s
  | some r =>
    let r1 := { r with done := r.done + 1, completed := r.targetProgress }
    let s1 := (s.setGroup g { x with run := some r1, timer := none }).raiseFlag (.stage g)
    if r1.done = r1.count then
      (s1.setGroup g { s1.group g with state := .arrived }).raiseFlag (.arrived g)
    else if r1.gap ≠ 0 ∧ r1.done % r1.gap = 0 then
      (s1.setGroup g { s1.group g with state := .gap }).raiseFlag (.gap g)
    else s1.startStage g

/-- A CONTINUE's condition: the group in GAP, the latch clear, no PIT_GATE line asserted (R125, R165). -/
def State.mayContinue (s : State) (g : GroupId) : Bool :=
  (s.group g).state == .gap && !s.stop && (s.assertedLine .pitGate).isNone

/-! ### The plan's fall (R53) -/

/-- A point at the plan's fall: PLANNED becomes BOUND and the constraint index is emptied (R30, R53). -/
def Point.fall (x : Point) : Point :=
  { x with life := if x.life = .planned then .bound else x.life, index := [] }

/-- A constraint at the plan's fall: IDLE, its last value absent (R53). -/
def Constraint.fall (c : Constraint) : Constraint := { c with state := .idle, last := none }

/-- The plan moves to a state, with the plan's fall if it leaves COMPILED (R53). -/
def State.planTo (s : State) (st : PlanState) : State :=
  let s1 := { s with plan := { s.plan with state := st } }
  if s.plan.state = .compiled then
    { s1 with
      points := s1.points.mapAll fun _ x => x.fall
      constraints := s1.constraints.mapAll fun _ c => c.map Constraint.fall }
  else s1

/-- The plan after a change of the body table (R9). -/
def State.planAfterBodies (s : State) : State := s.planTo (if s.anyBody then .drafted else .empty)

/-- The plan enters IN_SERVICE from COMPILED (R54). -/
def State.enterService (s : State) : State :=
  if s.plan.state = .compiled then { s with plan := { s.plan with state := .inService } } else s

/-! ### A point's place on its link (R31, R74, R75, R83, R84) -/

/-- The exchange, its answer to be discarded if it was sent for the point (R83). -/
def Exchange.discardFor (p : PointId) : Exchange → Exchange
  | .poll q n m t k d => .poll q n m t k (d || q == p)
  | .probe q n d => .probe q n (d || q == p)
  | .allStop => .allStop

/-- The exchange, its answer to be discarded (R83). -/
def Exchange.discard : Exchange → Exchange
  | .poll q n m t k _ => .poll q n m t k true
  | .probe q n _ => .probe q n true
  | .allStop => .allStop

/-- With nothing left to poll or probe and no answer awaited, the engine is between cycles (R77; log 30). -/
def Engine.rested (e : Engine) : Engine :=
  match e.exchange with
  | some (.poll ..) => e
  | some (.probe ..) => e
  | some .allStop => if e.roster.isEmpty && e.queue.isEmpty then { e with cycle := none } else e
  | none => if e.roster.isEmpty && e.queue.isEmpty then { e with cycle := none } else e

/-- The point leaves the roster and the queue; head attempts becomes 0 if it was the head; an answer to an
exchange sent for it is to be discarded (R31, R42, R83, R84, R85). -/
def Engine.without (e : Engine) (p : PointId) : Engine :=
  Engine.rested
    { e with
      roster := e.roster.filter fun r => r.point != p
      queue := e.queue.filter fun q => q != p
      attempts := if e.queue.head? = some p then 0 else e.attempts
      exchange := e.exchange.map (Exchange.discardFor p) }

/-- A probe for the point joins the tail of a RUNNING link's queue; on a RESETTING link it is held for the
end of the break (R84, R91). -/
def Engine.queueProbe (e : Engine) (p : PointId) : Engine :=
  match e.link with
  | .running => { e with queue := e.queue ++ [p] }
  | .resetting => e
  | .idle => e

/-- A point joins the link: an IDLE link becomes RUNNING, and its probe is queued (R75, R84). -/
def Engine.join (e : Engine) (p : PointId) : Engine :=
  match e.link with
  | .idle => { e with link := .running, queue := e.queue ++ [p] }
  | .running => e.queueProbe p
  | .resetting => e.queueProbe p

/-- An engine entering IDLE from RUNNING (R75). -/
def Engine.toIdle (e : Engine) : Engine :=
  { e with link := .idle, roster := [], queue := [], cycle := none, exchange := e.exchange.map Exchange.discard }

/-- Some non-VACANT point is on the link (R75). -/
def State.linkHasPoint (s : State) (l : LinkId) : Bool :=
  (ids 48).any fun p => (s.point p).life != .vacant && (s.point p).address.any (·.link == l)

/-- A RUNNING link whose last non-VACANT point has left goes IDLE (R75). -/
def State.idleIfEmpty (s : State) (l : LinkId) : State :=
  if (s.engine l).link = .running && !s.linkHasPoint l then s.setEngine l (s.engine l).toIdle else s

/-- The record of an unbound point, at its present column address (R31). -/
def Point.unbind (x : Point) : Point :=
  { x with
    life := .draft
    health := .unbound
    bindOutcome := .pending
    ratedCapacity := none
    ratedStroke := none
    nodeClass := none
    derated := none
    rest := none
    height := none
    load := none
    flags := 0
    conditions := 0
    missed := 0
    permit := .none
    index := [] }

/-! ### Requests and events -/

/-- The answer of a request: status and payload (R175, R177). -/
structure Answer where
  status : Status
  payload : List Byte
  deriving DecidableEq, Repr

/-- A request as the port takes it (R172 to R177). While the pin is asserted nothing is taken; during the
start-up wait the frame is discarded and the part sends FFh (R200; log 6). Otherwise the last response is
clocked out, the request is checked and acted on, and its response replaces the last response (R174). -/
def State.request {α : Type} (s : State) (code : Byte) (ops : Carried α) (act : α → State → Answer × State) : State :=
  match s.phase with
  | .held => s
  | .waiting _ => { s with port := { s.port with out := .filler } }
  | .running =>
    let r : Answer × State :=
      match ops with
      | .illFormed => (⟨.refusedRange, []⟩, s)
      | .takes o => act o s
    { r.2 with port := { r.2.port with last := ⟨r.1.status, code, r.1.payload⟩, out := .frame s.port.last } }

/-- An event of the part's own blocks, taken only while the part works (R200; log 5). -/
def State.event (s : State) (act : State → State) : State :=
  match s.phase with
  | .held => s
  | .waiting _ => s
  | .running => act s

end Sys2Proof.Machine
end

