-- ==== Sys2Proof/Machine/Payload.lean ====
section
/-! DEFINITION. Payloads: the encodings of R182, the refusal payloads of R187, the payload of each read
request (R183, R188 and the read rules), and the answers built from them. -/

namespace Sys2Proof.Machine

/-! ### Field encodings (R182) -/

/-- A two-byte number, most significant byte first (R182). -/
def be16 (n : Nat) : List Byte := [byte (n / 256), byte n]

/-- A height, load, limit or time in seconds; FFFFh for absent (R182). -/
def encHeight (o : Option Nat) : List Byte := be16 (o.getD 0xFFFF)

/-- A signed height: two's complement, 8000h for absent, clamped to -32,767 to +32,767 (R182). -/
def encSigned (o : Option Int) : List Byte :=
  match o with
  | none => be16 0x8000
  | some v => be16 ((max (-32767) (min 32767 v)) % 65536).toNat

/-- An id; FFh for absent (R182). -/
def encId {n : Nat} (o : Option (Fin n)) : Byte :=
  match o with
  | some i => byte i.val
  | none => 0xFF

/-- A one-byte count, percentage or enumeration; FFh for absent (R182; a count's absent code is a DESIGN
CHOICE, log 12). -/
def encSmall (o : Option Nat) : Byte := byte (o.getD 0xFF)

/-- A two-valued field (R182). -/
def encBool (b : Bool) : Byte := byte (boolCode b)

/-- A list, preceded by its count (R183). -/
def encList {α : Type} (l : List α) (f : α → List Byte) : List Byte := byte l.length :: l.flatMap f

/-- A four-byte mask, most significant byte first (R182). -/
def encMask32 (m : BitVec 26) : List Byte :=
  be16 (m.toNat / 65536) ++ be16 (m.toNat % 65536)

/-- The remaining microseconds of a timer in whole seconds, rounded up (R128, R152). -/
def wholeSeconds (us : Nat) : Nat := (us + (Config.usPerSecond - 1)) / Config.usPerSecond

/-- A column address: link number times 16 plus node address; FFh for absent (R182). -/
def encAddress (o : Option Address) : Byte :=
  match o with
  | some a => byte (a.link.val * 16 + a.node.val)
  | none => 0xFF

/-! ### Refusal payloads (R187) -/

/-- What a refusal payload names (R187). -/
inductive Detail
  | point (p : PointId)
  | body (b : BodyId)
  | constraint (c : ConstraintId)
  | group (g : GroupId)
  | line (l : LineId)
  | groupState (x : GroupState)
  | causes (m : BitVec 13)
  | splitJoint (holder : BodyId) (leading : Option BodyId)
  | condition (c : Condition)
  | lineFunction (f : LineFunction)
  deriving DecidableEq, Repr

/-- A refusal payload: the detail kind, then the value (R187). -/
def Detail.bytes : Detail → List Byte
  | .point p => [0x01, byte p.val]
  | .body b => [0x02, byte b.val]
  | .constraint c => [0x03, byte c.val]
  | .group g => [0x04, byte g.val]
  | .line l => [0x05, byte l.val]
  | .groupState x => [0x06, byte x.code]
  | .causes m => 0x07 :: be16 m.toNat
  | .splitJoint h l => [0x08, byte h.val, encId l]
  | .condition c => [0x09, byte (2 ^ c.bit)]
  | .lineFunction f => [0x0A, byte f.code]

/-! ### Answers -/

/-- A refusal without payload; the records stay (R177). -/
def refuse (s : State) (st : Status) : Answer × State := (⟨st, []⟩, s)

/-- A refusal that names what stands in the way; the records stay (R177). -/
def refuseFor (s : State) (st : Status) (d : Detail) : Answer × State := (⟨st, d.bytes⟩, s)

/-- DONE with no payload (R177). -/
def done (s : State) : Answer × State := (⟨.done, []⟩, s)

/-- DONE with a payload (R177). -/
def doneWith (s : State) (payload : List Byte) : Answer × State := (⟨.done, payload⟩, s)

/-- ACCEPTED with no payload: an operation started that ends later (R175). -/
def accepted (s : State) : Answer × State := (⟨.accepted, []⟩, s)

/-! ### The payloads of the read requests -/

/-- READ-POINT's payload (R44, R188). -/
def pointPayload (s : State) (p : PointId) : List Byte :=
  let x := s.point p
  if x.life = .vacant then [byte p.val, byte x.life.code]
  else
    [byte p.val, byte x.life.code, encAddress x.address,
     encId (x.seat.map (·.body)), encSmall (x.seat.map (·.corner.code)),
     byte x.health.code, byte x.bindOutcome.code]
    ++ encHeight x.ratedCapacity ++ encHeight x.ratedStroke ++ [encSmall x.nodeClass]
    ++ encHeight x.derated ++ encHeight x.rest ++ encHeight x.height ++ encHeight x.load
    ++ [byte x.flags.toNat, byte x.missed, encBool x.inhibit, encId x.group]
    ++ encHeight x.base ++ encHeight x.target
    ++ [byte (boolCode x.arrived + 2 * boolCode x.followHeld), byte x.permit.code, byte x.conditions.toNat]
    ++ encSigned x.lift ++ [encBool (s.raised p)]
    ++ encList x.index fun c => [byte c.val]

/-- READ-BODY's payload (R17; the items R17 lists for a DEFINED body, log 10). -/
def bodyPayload (s : State) (b : BodyId) : List Byte :=
  match s.body b with
  | none => [0x00]
  | some x =>
    [byte x.position.val, byte x.joint.code]
    ++ (x.corners.map fun p => byte p.val)
    ++ encHeight (some x.side) ++ encHeight (some x.end_) ++ encHeight (some x.twist) ++ [encId x.group]
    ++ [byte (s.trailingJoint x).code, encId ((s.leadingNeighbour x).map (·.1)),
        encId ((s.trailingNeighbour x).map (·.1)), encBool (s.bodyRaised x)]
    ++ x.corners.flatMap fun p =>
        [byte (s.point p).health.code] ++ encSigned (s.point p).lift ++ [encBool (s.raised p)]

/-- The term points of a constraint, in order (R47). -/
def Terms.points : Terms → List PointId
  | .two a b => [a, b]
  | .four a b c d => [a, b, c, d]

/-- READ-CONSTRAINT's payload (R71). -/
def constraintPayload (s : State) (c : ConstraintId) : List Byte :=
  match s.constraint c with
  | none => [0x00]
  | some x =>
    [byte x.kind.lifeCode, byte x.kind.code]
    ++ encList x.terms.points (fun p => [byte p.val])
    ++ encHeight (some x.limit) ++ [byte x.warn] ++ encHeight (some (x.limit * x.warn / 100))
    ++ [byte x.state.code] ++ encSigned x.last ++ [encId x.origin]

/-- The id of an offending record; FFh for absent (R72). -/
def encOffending : Option Offending → Byte
  | some (.point p) => byte p.val
  | some (.body b) => byte b.val
  | some (.constraint c) => byte c.val
  | none => 0xFF

/-- How many constraint records a test holds of. -/
def State.countConstraints (s : State) (f : Option Constraint → Bool) : Nat :=
  ((ids 128).filter fun c => f (s.constraint c)).length

/-- READ-PLAN's payload (R72). -/
def planPayload (s : State) : List Byte :=
  [byte s.plan.state.code, byte s.plan.outcome.code, encOffending s.plan.offending,
   byte ((ids 12).filter fun b => (s.body b).isSome).length,
   byte (s.countConstraints fun c => c.any fun x => x.kind != .custom),
   byte (s.countConstraints fun c => c.any fun x => x.kind == .custom),
   byte (s.countConstraints fun c => c.isNone),
   byte ((ids 48).filter fun p => (s.point p).life == .planned).length]

/-- READ-GROUP's payload (R139). Absent fields carry the absent code of their type (R183); the stage counts
are two bytes (log 13). -/
def groupPayload (s : State) (g : GroupId) : List Byte :=
  let x := s.group g
  if x.state = .free then [byte x.state.code]
  else
    [byte x.state.code] ++ encList x.members (fun b => [byte b.val])
    ++ encSigned (x.run.map (·.travel)) ++ encHeight (x.run.map (·.step)) ++ [encSmall (x.run.map (·.gap))]
    ++ encHeight (x.run.map (·.count)) ++ encHeight (x.run.map (·.done)) ++ encHeight (x.run.map (·.completed))
    ++ [encSmall (x.heldFrom.map (·.code))] ++ be16 x.causes.toNat
    ++ encHeight (x.timer.map wholeSeconds)
    ++ encList (s.members g) fun p =>
        let y := s.point p
        [byte p.val, byte y.health.code, encBool y.arrived, encBool y.followHeld]
        ++ encHeight y.base ++ encHeight y.target ++ [byte y.permit.code]
        ++ encSigned (match x.run, y.base with
            | some r, some _ => some (y.progress r.travel)
            | _, _ => none)

/-- The jog progress of a point against a jog (R148). -/
def ActiveJog.progress (j : ActiveJog) (x : Point) : Int :=
  ((x.height.getD 0 : Int) - (j.start : Int)) * direction j.distance

/-- READ-JOG's payload (R152). -/
def jogPayload (s : State) : List Byte :=
  [encBool s.jog.active.isSome, byte s.jog.outcome.code, encId s.jog.last]
  ++ match s.jog.active with
    | none => []
    | some j =>
      let x := s.point j.point
      [byte j.point.val] ++ encSigned (some j.distance) ++ encHeight (some j.start)
      ++ encHeight x.target ++ encHeight x.height ++ encSigned (some (j.progress x))
      ++ encHeight (some (wholeSeconds j.timer))

/-- READ-LINES's payload (R171). -/
def linesPayload (s : State) : List Byte :=
  ((ids 12).flatMap fun l =>
    let x := s.line l
    [byte x.function.code, byte x.parameter.code, byte x.polarity.code]
    ++ if x.function.isInput then
        [encSmall (x.debounced.map (·.code)), encBool x.asserted, byte (s.pins.at l).code, encBool x.timer.isSome]
      else
        encBool (s.outputActive x)
          :: (if x.function = .generalOut then [encSmall (x.output.map boolCode)] else []))
  ++ [encBool (s.assertedLine .shedStop).isSome, encBool (s.assertedLine .pitGate).isSome]
  ++ (ids 4).map fun g => encBool (s.holdButtonAsserted g)

/-- The slots of a polling cycle: one for each roster entry, one more for the probe (R93). -/
def Engine.cycleLength (e : Engine) : Nat := e.roster.length + (if e.queue.isEmpty then 0 else 1)

/-- The node address of a point, 0 where it has none. -/
def Point.nodeOf (x : Point) : Nat := (x.address.map (·.node.val)).getD 0

/-- READ-LINK's payload (R93; log 16). -/
def linkPayload (s : State) (l : LinkId) : List Byte :=
  let e := s.engine l
  [byte e.link.code] ++ encHeight (if e.link = .resetting then e.breakLeft else none) ++ [encBool e.stopPending]
  ++ encList e.roster (fun r =>
      [byte r.node.val, byte r.point.val, byte (s.point r.point).health.code, byte (s.point r.point).missed,
       byte r.goodRun])
  ++ encList e.queue.zipIdx (fun q =>
      [byte q.1.val, byte (s.point q.1).nodeOf] ++ if q.2 = 0 then [byte e.attempts] else [])
  ++ [byte e.cycleLength]

/-- Whether any of a group's four flags is set (R195). -/
def Attention.groupSummary (a : Attention) (g : GroupId) : Bool :=
  a.isSet (.stage g) || a.isSet (.gap g) || a.isSet (.arrived g) || a.isSet (.held g)

/-- READ-ATTENTION's payload (R195). -/
def attentionPayload (s : State) : List Byte :=
  encMask32 s.attention.flags ++ encMask32 s.attention.enables
  ++ (ids 4).map fun g => encBool (s.attention.groupSummary g)

/-- The ten site limits in the order and with the sizes of SET-LIMITS (R186, R198). -/
def encLimits (l : Limits) : List Byte :=
  be16 l.liftCeiling ++ be16 l.maxStep ++ [byte l.followWindow, byte l.arrivalBand, byte l.restBand]
  ++ be16 l.contactLoad ++ be16 l.jointLimit ++ [byte l.warnPercent, byte l.shareLimit] ++ be16 l.stageTimeout

/-- READ-LIMITS's payload (R198). -/
def limitsPayload (s : State) : List Byte := encLimits s.limits ++ [encBool s.limitsLock]

/-- READ-IDENTITY's payload (R199). -/
def identityPayload : List Byte :=
  be16 Config.partCode ++ [byte Config.siliconRevision] ++ Config.capacities.map byte

end Sys2Proof.Machine
end

