-- ==== Sys2Proof/Machine/AttentionUnit.lean ====
section
/-! DEFINITION. The attention unit, the site limits record and the identity record (chapter 10). -/

namespace Sys2Proof.Machine

/-- READ-ATTENTION (R195). -/
def readAttention (_ : Unit) (s : State) : Answer × State := doneWith s (attentionPayload s)

/-- The meaning of READ_ATTENTION. -/
def execReadAttention (ops : Carried Unit) (s : State) : Host.Outcome State Fault Refusal :=
  .next (s.request 0x80 ops readAttention)

/-- The flags a mask names become clear; STOP named while the latch is set is set again (R193). Bits that name no
flag are ignored (R183). -/
def State.clearFlags (s : State) (mask : BitVec 32) : State :=
  let s1 := { s with attention := { s.attention with flags := s.attention.flags &&& ~~~ mask.setWidth 26 } }
  if s.stop && mask.getLsbD (Flag.bit .stop) then s1.raiseFlag .stop else s1

/-- CLEAR-ATTENTION (R193). -/
def clearAttention (mask : BitVec 32) (s : State) : Answer × State := done (s.clearFlags mask).settle

/-- The meaning of CLEAR_ATTENTION. -/
def execClearAttention (ops : Carried (BitVec 32)) (s : State) : Host.Outcome State Fault Refusal :=
  .next (s.request 0x81 ops clearAttention)

/-- SET-ENABLES (R194). -/
def setEnables (mask : BitVec 32) (s : State) : Answer × State :=
  done { s with attention := { s.attention with enables := mask.setWidth 26 } }.settle

/-- The meaning of SET_ENABLES. -/
def execSetEnables (ops : Carried (BitVec 32)) (s : State) : Host.Outcome State Fault Refusal :=
  .next (s.request 0x82 ops setEnables)

/-- SET-LIMITS (R197). DEDUCED (log 39): with the lock set, a field out of range is still refused with REFUSED-RANGE, by the
order of R176's stages; R197's 'whatever the values given' is read of values in range. -/
def setLimits (o : Limits) (s : State) : Answer × State :=
  if !Limits.ok o then refuse s .refusedRange
  else if s.limitsLock then refuse s .refusedLocked
  else if s.plan.state = .inService then refuse s .refusedState
  else done { s with limits := o }.settle

/-- The meaning of SET_LIMITS. -/
def execSetLimits (ops : Carried Limits) (s : State) : Host.Outcome State Fault Refusal :=
  .next (s.request 0x90 ops setLimits)

/-- LOCK-LIMITS (R198). -/
def lockLimits (_ : Unit) (s : State) : Answer × State := done { s with limitsLock := true }

/-- The meaning of LOCK_LIMITS. -/
def execLockLimits (ops : Carried Unit) (s : State) : Host.Outcome State Fault Refusal :=
  .next (s.request 0x91 ops lockLimits)

/-- READ-LIMITS (R198). -/
def readLimits (_ : Unit) (s : State) : Answer × State := doneWith s (limitsPayload s)

/-- The meaning of READ_LIMITS. -/
def execReadLimits (ops : Carried Unit) (s : State) : Host.Outcome State Fault Refusal :=
  .next (s.request 0x92 ops readLimits)

/-- READ-IDENTITY (R199). -/
def readIdentity (_ : Unit) (s : State) : Answer × State := doneWith s identityPayload

/-- The meaning of READ_IDENTITY. -/
def execReadIdentity (ops : Carried Unit) (s : State) : Host.Outcome State Fault Refusal :=
  .next (s.request 0x93 ops readIdentity)

end Sys2Proof.Machine
end

