-- ==== Sys2Proof/Machine/Monitor.lean ====
section
/-! DEFINITION. The constraint monitor (chapter 5): the judging of constraints, point conditions and body
skew, with the flags, hold claims and jog notices each passes on. -/

namespace Sys2Proof.Machine

/-- The value of a constraint from the lifts of its terms (R47); absent where a term has no lift, which R95
rules out in a COMPILED or IN_SERVICE plan. -/
def State.constraintValue (s : State) (t : Terms) : Option Int :=
  match t with
  | .two a b =>
    match (s.point a).lift, (s.point b).lift with
    | some x, some y => some (x - y)
    | _, _ => none
  | .four a b c d =>
    match (s.point a).lift, (s.point b).lift, (s.point c).lift, (s.point d).lift with
    | some x, some y, some z, some w => some ((x - y) - (z - w))
    | _, _, _, _ => none

/-- The state that a value gives: the first row of R95's table that applies. -/
def judgeValue (anyLost : Bool) (v : Int) (limit warn : Nat) : ConstraintState :=
  if anyLost then .blind
  else if limit < v.natAbs then .breach
  else if limit * warn < v.natAbs * 100 then .warn
  else .clear

/-- Some term of a constraint is LOST (R95). -/
def State.anyTermLost (s : State) (t : Terms) : Bool := t.points.any fun p => (s.point p).health == .lost

/-- The distinct groups named by the term points (R98). -/
def State.termGroups (s : State) (t : Terms) : List GroupId :=
  (ids 4).filter fun g => t.points.any fun p => (s.point p).group == some g

/-- A claim with one cause on each group of a list. -/
def State.claimGroups (s : State) (gs : List GroupId) (c : HoldCause) : State := gs.foldl (fun t g => t.claim g c) s

/-- The jog notice of a constraint entering a state: it ends the jog of a term point with LIMIT (R97). -/
def State.noticeTerms (s : State) (t : Terms) : State :=
  match s.jog.active with
  | some j => if t.points.contains j.point then s.endJog .limit else s
  | none => s

/-- The effects of a constraint entering a state (R97, R98). -/
def State.enterState (s : State) (t : Terms) (st : ConstraintState) : State :=
  match st with
  | .idle => s
  | .clear => s
  | .warn => (s.raiseFlag .warn).noticeTerms t
  | .breach => ((s.raiseFlag .breach).claimGroups (s.termGroups t) .breach).noticeTerms t
  | .blind => ((s.raiseFlag .breach).claimGroups (s.termGroups t) .blind).noticeTerms t

/-- The evaluation of one constraint record (R95, R97): its last value and state are written, and entering
a state has its effects. -/
def State.evaluate (s : State) (c : ConstraintId) : State :=
  match s.constraint c with
  | none => s
  | some x =>
    match s.constraintValue x.terms with
    | none => s
    | some v =>
      let st := judgeValue (s.anyTermLost x.terms) v x.limit x.warn
      let s1 := s.setConstraint c (some { x with state := st, last := some v })
      if st = x.state then s1 else s1.enterState x.terms st

/-- The plan is COMPILED or IN_SERVICE, where constraints are judged (R96). -/
def State.judging (s : State) : Bool := s.plan.state == .compiled || s.plan.state == .inService

/-- The evaluation of each record of a point's constraint index (R96). -/
def State.evaluateIndex (s : State) (p : PointId) : State :=
  if s.judging then (s.point p).index.foldl State.evaluate s else s

/-- The evaluation of every non-EMPTY record, as a successful compilation makes it (R63, R96). -/
def State.evaluateAll (s : State) : State := (ids 128).foldl State.evaluate s

/-! ### Point conditions (R102 to R105) -/

/-- OVERLOAD: the reported load exceeds the derated capacity (R102, R104). -/
def Point.overloaded (x : Point) : Bool :=
  match x.load, x.derated with
  | some l, some d => d < l
  | _, _ => false

/-- Whether a condition's test holds at a stored report whose POLL carried a permit (R102, R103). -/
def Point.testCondition (permit : Permit) (x : Point) : Condition → Bool
  | .overload => x.overloaded
  | .nodeStop => x.hasFlag .localStop
  | .nodeFault => x.hasFlag .motorFault
  | .stroke => x.hasFlag .strokeEnd && (permit == .raise || x.hasCondition .stroke)

/-- A point's condition is written. -/
def Point.setCondition (x : Point) (c : Condition) (present : Bool) : Point :=
  { x with conditions := if present then insertBit x.conditions c.bit else eraseBit x.conditions c.bit }

/-- A condition is judged: where it appears it makes its claim, its flag and its jog notice (R105). -/
def State.judgeCondition (s : State) (p : PointId) (c : Condition) (present : Bool) : State :=
  let x := s.point p
  let s1 := s.setPoint p (x.setCondition c present)
  if present && !x.hasCondition c then
    let s2 := s1.claimOn x.group c.cause
    let s3 := if c = .overload then s2.raiseFlag .load else s2
    s3.jogNotice p .fault
  else s1

/-- The conditions of a point judged at a stored report (R104). -/
def State.judgeConditions (s : State) (p : PointId) (permit : Permit) : State :=
  let x := s.point p
  allConditions.foldl (fun t c => t.judgeCondition p c (x.testCondition permit c)) s

/-- OVERLOAD alone, judged again at a change of derated capacity (R104). -/
def State.judgeOverload (s : State) (p : PointId) : State := s.judgeCondition p .overload (s.point p).overloaded

/-! ### Body skew (R106, R107) -/

/-- A DEFINED body is skewed (R106). -/
def State.skewed (s : State) (x : Body) : Bool :=
  match (s.point x.ll).load, (s.point x.lr).load, (s.point x.tl).load, (s.point x.tr).load with
  | some a, some b, some c, some d =>
    [a, b, c, d].all (fun n => s.limits.contactLoad ≤ n)
      && [a, b, c, d].any (fun n => s.limits.shareLimit * (a + b + c + d) < n * 100)
  | _, _, _, _ => false

/-- The skew entry of a body is judged (R107). -/
def State.judgeSkew (s : State) (b : BodyId) : State :=
  match s.body b with
  | none => s.setSkew b false
  | some x =>
    let now := s.skewed x
    let s1 := s.setSkew b now
    if now && !s.skew.at b then (s1.raiseFlag .load).claimOn x.group .skew else s1

/-- The skew entry of the body a point names, where it names one (R107). -/
def State.judgeSkewOf (s : State) (p : PointId) : State :=
  match (s.point p).seat with
  | some w => s.judgeSkew w.body
  | none => s

/-! ### What the monitor does with a stored report (R80) -/

/-- The monitor takes a stored report, conditions before constraints. -/
def State.monitorConditionsFirst (s : State) (p : PointId) (permit : Permit) : State :=
  ((s.judgeConditions p permit).evaluateIndex p).judgeSkewOf p

/-- The monitor takes a stored report, constraints before conditions. -/
def State.monitorConstraintsFirst (s : State) (p : PointId) (permit : Permit) : State :=
  ((s.evaluateIndex p).judgeConditions p permit).judgeSkewOf p

end Sys2Proof.Machine
end

