-- ==== Sys2Proof/Machine/Bodies.lean ====
section
/-! DEFINITION. The requests on bodies (chapter 1). -/

namespace Sys2Proof.Machine

/-- The checks of R8 that body requests share after their ranges: lock, in flight, the body's life, no
group formed. `wantDefined` says whether the body must be DEFINED or EMPTY. -/
def State.bodyRefusal (s : State) (b : BodyId) (wantDefined : Bool) : Option Answer :=
  if s.plan.state = .inService then some ⟨.refusedLocked, []⟩
  else if s.plan.state = .compiling then some ⟨.busy, []⟩
  else if (s.body b).isSome ≠ wantDefined then some ⟨.refusedState, []⟩
  else
    match s.busyGroup with
    | some g => some ⟨.refusedState, (Detail.group g).bytes⟩
    | none => none

/-- The DEFINED body other than `b` that holds a position (R2). -/
def State.otherAt (s : State) (b : BodyId) (pos : Position) : Option BodyId :=
  (ids 12).find? fun c => c != b && (s.body c).any fun x => x.position == pos

/-- A point may enter a body: it is enrolled and in no body (R10, R12). -/
def Point.enterable (x : Point) : Bool := x.life != .vacant && x.seat.isNone

/-- The corner at which a point stands in a body record. -/
def Body.cornerOf (x : Body) (p : PointId) : Option Corner :=
  allCorners.find? fun c => x.corner c == p

/-- The points' side of the relation between a body record and its corners (R3): the corner points of the
record name the body and their corner, and every other point that named the body names none. -/
def State.seatBody (s : State) (b : BodyId) (x : Option Body) : State :=
  s.mapPoints fun p y =>
    match x.bind fun r => r.cornerOf p with
    | some c => { y with seat := some ⟨b, c⟩ }
    | none => if y.seat.any (·.body == b) then { y with seat := none } else y

/-- A body record is written together with its points' side of the relation (R3). -/
def State.writeBody (s : State) (b : BodyId) (x : Option Body) : State := (s.setBody b x).seatBody b x

/-! ### DEFINE-BODY (R10, R11) -/

/-- The record DEFINE-BODY's operands describe, where every operand is in range (R10, R11). -/
def DefineBodyOps.record? (o : DefineBodyOps) : Option (BodyId × Body) :=
  if o.ok then
    match fin? 12 o.body, fin? 12 o.position, fin? 48 o.ll, fin? 48 o.lr, fin? 48 o.tl, fin? 48 o.tr with
    | some b, some pos, some ll, some lr, some tl, some tr =>
      some (b, ⟨pos, ll, lr, tl, tr, o.joint, o.side.get Config.defaultSideLimit, o.end_.get Config.defaultEndLimit,
        o.twist.get Config.defaultTwistLimit, none⟩)
    | _, _, _, _, _, _ => none
  else none

/-- An accepted DEFINE-BODY (R9, R11, R107). -/
def State.define (s : State) (b : BodyId) (x : Body) : State :=
  ((s.writeBody b (some x)).planAfterBodies).judgeSkew b

/-- DEFINE-BODY (R8, R10). -/
def defineBody (o : DefineBodyOps) (s : State) : Answer × State :=
  match DefineBodyOps.record? o with
  | none => refuse s .refusedRange
  | some (b, x) =>
    match s.bodyRefusal b false with
    | some a => (a, s)
    | none =>
      match x.corners.find? fun p => !(s.point p).enterable with
      | some p => refuseFor s .refusedState (.point p)
      | none =>
        match s.otherAt b x.position with
        | some c => refuseFor s .conflict (.body c)
        | none => done (s.define b x).settle

/-- The meaning of DEFINE_BODY. -/
def execDefineBody (ops : Carried DefineBodyOps) (s : State) : Host.Outcome State Fault Refusal :=
  .next (s.request 0x20 ops defineBody)

/-! ### AMEND-BODY (R12 to R15) -/

/-- A field of the resulting record: the value given, or the value held where the body is DEFINED (R12). -/
def resulting (given held : Option Nat) : Option Nat := given.orElse fun _ => held

/-- The four corners of the resulting record are distinct, an EMPTY body being judged from the corners given
alone (R12). -/
def AmendBodyOps.cornersOk (o : AmendBodyOps) (held : Option Body) : Bool :=
  distinct (([resulting o.ll (held.map (·.ll.val)), resulting o.lr (held.map (·.lr.val)),
    resulting o.tl (held.map (·.tl.val)), resulting o.tr (held.map (·.tr.val))] : List (Option Nat)).filterMap id)

/-- The leading joint of the resulting record is NONE if its position is 0 (R12). -/
def AmendBodyOps.jointOk (o : AmendBodyOps) (held : Option Body) : Bool :=
  match resulting o.position (held.map (·.position.val)), o.joint.orElse fun _ => held.map (·.joint) with
  | some p, some j => p != 0 || j == .none
  | _, _ => true

/-- A value given for an id field, or the value held. -/
def givenId {n : Nat} (o : Option Nat) (held : Fin n) : Fin n := ((o.bind (fin? n)).getD held)

/-- A limit given, DEFAULT replaced, or the limit held (R15). -/
def givenLimit (o : Option OrDefault) (d held : Nat) : Nat := (o.map (OrDefault.get d)).getD held

/-- The resulting record of an AMEND-BODY on a DEFINED body (R12). -/
def Body.amend (x : Body) (o : AmendBodyOps) : Body where
  position := givenId o.position x.position
  ll := givenId o.ll x.ll
  lr := givenId o.lr x.lr
  tl := givenId o.tl x.tl
  tr := givenId o.tr x.tr
  joint := o.joint.getD x.joint
  side := givenLimit o.side Config.defaultSideLimit x.side
  end_ := givenLimit o.end_ Config.defaultEndLimit x.end_
  twist := givenLimit o.twist Config.defaultTwistLimit x.twist
  group := x.group

/-- An accepted AMEND-BODY (R9, R13, R14, R15, R107): a record that does not change leaves everything as it
was. -/
def State.amendRecord (s : State) (b : BodyId) (old new : Body) : State :=
  if new = old then s
  else
    let s1 := (s.writeBody b (some new)).planAfterBodies
    (if new.corners = old.corners then s1 else s1.judgeSkew b).settle

/-- AMEND-BODY (R8, R12). -/
def amendBody (o : AmendBodyOps) (s : State) : Answer × State :=
  match fin? 12 o.body with
  | none => refuse s .refusedRange
  | some b =>
    if !(o.ok && AmendBodyOps.cornersOk o (s.body b) && AmendBodyOps.jointOk o (s.body b)) then refuse s .refusedRange
    else
      match s.bodyRefusal b true with
      | some a => (a, s)
      | none =>
        match s.body b with
        | none => refuse s .refusedState
        | some x =>
          let new := x.amend o
          match new.corners.find? fun p => !x.corners.contains p && !(s.point p).enterable with
          | some p => refuseFor s .refusedState (.point p)
          | none =>
            match s.otherAt b new.position with
            | some c => refuseFor s .conflict (.body c)
            | none => done (s.amendRecord b x new)

/-- The meaning of AMEND_BODY. -/
def execAmendBody (ops : Carried AmendBodyOps) (s : State) : Host.Outcome State Fault Refusal :=
  .next (s.request 0x21 ops amendBody)

/-! ### RETIRE-BODY (R16) and READ-BODY (R17) -/

/-- An accepted RETIRE-BODY (R9, R16, R107). -/
def State.retireBody (s : State) (b : BodyId) : State :=
  ((s.writeBody b none).planAfterBodies).judgeSkew b

/-- RETIRE-BODY (R8, R16). -/
def retireBody (n : Nat) (s : State) : Answer × State :=
  match fin? 12 n with
  | none => refuse s .refusedRange
  | some b =>
    match s.bodyRefusal b true with
    | some a => (a, s)
    | none => done (s.retireBody b).settle

/-- The meaning of RETIRE_BODY. -/
def execRetireBody (ops : Carried Nat) (s : State) : Host.Outcome State Fault Refusal :=
  .next (s.request 0x22 ops Machine.retireBody)

/-- READ-BODY (R17). -/
def readBody (n : Nat) (s : State) : Answer × State :=
  match fin? 12 n with
  | none => refuse s .refusedRange
  | some b => doneWith s (bodyPayload s b)

/-- The meaning of READ_BODY. -/
def execReadBody (ops : Carried Nat) (s : State) : Host.Outcome State Fault Refusal :=
  .next (s.request 0x23 ops readBody)

end Sys2Proof.Machine
end

