-- ==== Sys2Proof/Machine/Lines.lean ====
section
/-! DEFINITION. The line block (chapter 8): the function menu, assertions and releases, debounce, and the
requests on lines. -/

namespace Sys2Proof.Machine

/-! ### The function menu (R159) -/

/-- The function a selector names (R159). -/
def function? : Nat → Option LineFunction
  | 0 => some .generalIn
  | 1 => some .generalOut
  | 2 => some .shedStop
  | 3 => some .pitGate
  | 4 => some .holdButton
  | 5 => some .continueButton
  | 6 => some .beacon
  | 7 => some .faultLamp
  | 8 => some .groupMoving
  | _ => none

/-- The lines a function is allowed on (R159). -/
def LineFunction.allowedOn (f : LineFunction) (l : LineId) : Bool :=
  match f with
  | .generalIn => true | .pitGate => true | .holdButton => true | .continueButton => true
  | .shedStop => 8 ≤ l.val
  | .generalOut => l.val < 8 | .beacon => l.val < 8 | .faultLamp => l.val < 8 | .groupMoving => l.val < 8

/-- The parameter a function takes (R159). -/
def LineFunction.takesParameter : LineFunction → LineParameter → Bool
  | .holdButton, .group _ => true
  | .holdButton, .all => true
  | .holdButton, .absent => false
  | .continueButton, .group _ => true
  | .continueButton, .all => false
  | .continueButton, .absent => false
  | .groupMoving, .group _ => true
  | .groupMoving, .all => false
  | .groupMoving, .absent => false
  | .generalIn, p => p == .absent
  | .generalOut, p => p == .absent
  | .shedStop, p => p == .absent
  | .pitGate, p => p == .absent
  | .beacon, p => p == .absent
  | .faultLamp, p => p == .absent

/-! ### Assertions and releases (R160, R162 to R166) -/

/-- The effects of an assertion of a line, by its function (R162 to R166). -/
def State.takeAssertion (s : State) (l : LineId) : State :=
  let x := s.line l
  match x.function with
  | .shedStop => s.setLatch
  | .pitGate => s.claimAll .gate
  | .holdButton =>
    match x.parameter with
    | .group g => s.claim g .line
    | .all => s.claimAll .line
    | .absent => s
  | .continueButton =>
    match x.parameter with
    | .group g => if s.mayContinue g then s.startStage g else s
    | .all => s
    | .absent => s
  | .generalIn => s.raiseFlag .line
  | .generalOut => s | .beacon => s | .faultLamp => s | .groupMoving => s

/-- The effects of a release of a line: a GENERAL_IN sets LINE, any other has none (R162 to R166). -/
def State.takeRelease (s : State) (l : LineId) : State :=
  if (s.line l).function = .generalIn then s.raiseFlag .line else s

/-- The debounced level of an input line takes a level, its timer goes, and the change is an assertion or a
release (R160, R161). -/
def State.acceptLevel (s : State) (l : LineId) (v : Level) : State :=
  let x := s.line l
  let y : Line := { x with debounced := some v, timer := none }
  let s1 := s.setLine l y
  if !x.asserted && y.asserted then s1.takeAssertion l
  else if x.asserted && !y.asserted then s1.takeRelease l
  else s1

/-! ### Changes of raw level and the debounce timer (R161) -/

/-- A change of raw level on an input line (R161). -/
def State.rawEvent (s : State) (l : LineId) (v : Level) : State :=
  let x := s.line l
  if !x.function.isInput then s
  else if x.debounced = some v then s.setLine l { x with timer := none }
  else if x.function = .shedStop ∧ v = Polarity.active x.polarity then (s.acceptLevel l v).settle
  else s.setLine l { x with timer := some Config.debounceUs }

/-- The raw level at a pin changes: the level is always the pin's; the line block takes it as an event on an
input line while the part works (R158, R161, R200; log 26). -/
def State.rawChange (s : State) (l : LineId) (v : Level) : State :=
  if s.pins.at l = v then s
  else { s with pins := s.pins.put l v }.event fun t => t.rawEvent l v

/-- The meaning of RAW_LEVEL_CHANGE. -/
def execRawLevelChange (l : LineId) (v : Level) (s : State) : Host.Outcome State Fault Refusal :=
  .next (s.rawChange l v)

/-- A debounce timer reaches zero: the debounced level takes the raw level (R161). A timer that is not there
does not expire (log 5). -/
def State.debounceExpires (s : State) (l : LineId) : State :=
  if (s.line l).function.isInput ∧ (s.line l).timer.isSome then (s.acceptLevel l (s.pins.at l)).settle else s

/-- The meaning of DEBOUNCE_TIMER_EXPIRY. -/
def execDebounceTimerExpiry (l : LineId) (s : State) : Host.Outcome State Fault Refusal :=
  .next (s.event fun t => t.debounceExpires l)

/-! ### SET-LINE (R168, R169) -/

/-- The lock: in service a SHED_STOP line keeps its function and polarity (R168). -/
def State.lineLocked (s : State) (l : LineId) (f : LineFunction) (pol : Polarity) : Bool :=
  s.plan.state == .inService && (s.line l).function == .shedStop && (f != .shedStop || pol != (s.line l).polarity)

/-- The record of a line rewritten by a SET-LINE that changes it, for the raw level at its pin (R169; log 27). -/
def Line.rewrite (x : Line) (raw : Level) (f : LineFunction) (par : LineParameter) (pol : Polarity) : Line :=
  let y : Line := { x with function := f, parameter := par, polarity := pol }
  if !f.isInput then
    { y with debounced := none, timer := none, output := if f = .generalOut then some false else none }
  else if !x.function.isInput then { y with debounced := some raw, timer := none, output := none }
  else if f = .shedStop ∧ raw = Polarity.active pol then { y with debounced := some raw, timer := none }
  else y

/-- A function whose assertion is taken when SET-LINE finds the line asserted (R169). -/
def LineFunction.protective : LineFunction → Bool
  | .shedStop => true | .pitGate => true | .holdButton => true
  | .generalIn => false | .generalOut => false | .continueButton => false
  | .beacon => false | .faultLamp => false | .groupMoving => false

/-- A SET-LINE that changes the line (R169). -/
def State.rewriteLine (s : State) (l : LineId) (f : LineFunction) (par : LineParameter) (pol : Polarity) : State :=
  let y := (s.line l).rewrite (s.pins.at l) f par pol
  let s1 := s.setLine l y
  if f.protective && y.asserted then s1.takeAssertion l else s1

/-- SET-LINE after its ranges (R168, R169). -/
def setLineChecked (l : LineId) (f : LineFunction) (par : LineParameter) (pol : Polarity) (s : State) : Answer × State :=
  let x := s.line l
  if s.lineLocked l f pol then refuseFor s .refusedLocked (.line l)
  else if x.function = f ∧ x.parameter = par ∧ x.polarity = pol then done s
  else done (s.rewriteLine l f par pol).settle

/-- SET-LINE (R168). -/
def setLine (o : SetLineOps) (s : State) : Answer × State :=
  match fin? 12 o.line, function? o.selector with
  | some l, some f =>
    if !(f.allowedOn l && f.takesParameter o.parameter) then refuse s .refusedRange
    else setLineChecked l f o.parameter o.polarity s
  | _, _ => refuse s .refusedRange

/-- The meaning of SET_LINE. -/
def execSetLine (ops : Carried SetLineOps) (s : State) : Host.Outcome State Fault Refusal :=
  .next (s.request 0x60 ops Machine.setLine)

/-! ### SET-OUTPUT (R170) and READ-LINES (R171) -/

/-- SET-OUTPUT (R170). -/
def setOutput (o : SetOutputOps) (s : State) : Answer × State :=
  match fin? 12 o.line with
  | none => refuse s .refusedRange
  | some l =>
    if (s.line l).function ≠ .generalOut then refuseFor s .refusedState (.lineFunction (s.line l).function)
    else done (s.setLine l { s.line l with output := some o.active }).settle

/-- The meaning of SET_OUTPUT. -/
def execSetOutput (ops : Carried SetOutputOps) (s : State) : Host.Outcome State Fault Refusal :=
  .next (s.request 0x61 ops setOutput)

/-- READ-LINES (R171). -/
def readLines (_ : Unit) (s : State) : Answer × State := doneWith s (linesPayload s)

/-- The meaning of READ_LINES. -/
def execReadLines (ops : Carried Unit) (s : State) : Host.Outcome State Fault Refusal :=
  .next (s.request 0x62 ops readLines)

end Sys2Proof.Machine
end

