-- ==== Sys2Proof/Machine/Groups.lean ====
section
/-! DEFINITION. The group engine (chapter 6): its requests, its stage timer, and what it does with a
stored report. -/

namespace Sys2Proof.Machine

/-- The ids that a list of numbers names, where all are in range. -/
def idList? (n : Nat) : List Nat → Option (List (Fin n))
  | [] => some []
  | a :: l =>
    match fin? n a, idList? n l with
    | some i, some r => some (i :: r)
    | _, _ => none

/-- Division rounded up (R118, R127). -/
def ceilDiv (a b : Nat) : Nat := (a + (b - 1)) / b

/-- The plan is COMPILING, so a group request that passes its ranges is refused with BUSY (R65). -/
def State.compiling (s : State) : Bool := s.plan.state == .compiling

/-! ### FORM-GROUP (R113 to R115) -/

/-- The bodies of a list that are DEFINED, in ascending position (R113). -/
def State.inPosition (s : State) (bs : List BodyId) : List (BodyId × Body) :=
  s.bodiesInOrder.filter fun y => bs.contains y.1

/-- The CLOSED joint of one listed body whose other body is not listed: the leading joint, then the
trailing one (R113). -/
def State.splitAt (s : State) (bs : List BodyId) (y : BodyId × Body) : Option Detail :=
  let lead := (s.leadingNeighbour y.2).map (·.1)
  let trail := (s.trailingNeighbour y.2).map (·.1)
  if y.2.joint = .closed ∧ !(lead.any bs.contains) then some (.splitJoint y.1 lead)
  else
    match trail with
    | some c => if s.trailingJoint y.2 = .closed ∧ !bs.contains c then some (.splitJoint c (some y.1)) else none
    | none => none

/-- A body may enter a group: DEFINED and in no group (R113). -/
def State.freeBody (s : State) (b : BodyId) : Bool := (s.body b).any fun x => x.group.isNone

/-- A point may enter a group: PLANNED, LIVE and not the jog point (R113). -/
def State.mayJoinGroup (s : State) (p : PointId) : Bool :=
  (s.point p).life == .planned && (s.point p).health == .live && !(s.jog.active.any fun j => j.point == p)

/-- An accepted FORM-GROUP (R115). -/
def State.form (s : State) (g : GroupId) (bs : List BodyId) : State :=
  let points := s.cornersOf bs
  let ordered := (s.inPosition bs).map (·.1)
  let s1 := s.mapBodies fun b x => if bs.contains b then { x with group := some g } else x
  let s2 := s1.mapPoints fun p x =>
    if points.contains p then
      { x with group := some g, base := none, target := none, arrived := false, followHeld := false }
    else x
  s2.setGroup g { Group.free with state := .formed, members := ordered }

/-- FORM-GROUP's state checks in their order, and what it does where none fails (R113, R115). -/
def formChecked (g : GroupId) (bs : List BodyId) (s : State) : Answer × State :=
  if (s.group g).state ≠ .free then refuseFor s .refusedState (.groupState (s.group g).state)
  else if !(s.plan.state == .compiled || s.plan.state == .inService) then refuse s .refusedState
  else
    match bs.find? fun b => !s.freeBody b with
    | some b => refuseFor s .refusedState (.body b)
    | none =>
      match (s.cornersOf bs).find? fun p => !s.mayJoinGroup p with
      | some p => refuseFor s .refusedState (.point p)
      | none =>
        match (s.inPosition bs).findSome? (s.splitAt bs) with
        | some d => refuseFor s .refusedState d
        | none => done (s.form g bs).settle

/-- FORM-GROUP (R113). -/
def formGroup (o : FormGroupOps) (s : State) : Answer × State :=
  match fin? 4 o.group, idList? 12 o.bodies with
  | some g, some bs =>
    if !o.ok then refuse s .refusedRange
    else if s.compiling then refuse s .busy
    else formChecked g bs s
  | _, _ => refuse s .refusedRange

/-- The meaning of FORM_GROUP. -/
def execFormGroup (ops : Carried FormGroupOps) (s : State) : Host.Outcome State Fault Refusal :=
  .next (s.request 0x40 ops formGroup)

/-! ### START (R116 to R118) -/

/-- The first and the final target of a member lie within its range (R116). -/
def Point.runOk (liftCeiling : Nat) (travel : Int) (step : Nat) (x : Point) : Bool :=
  let h : Int := (x.height.getD 0 : Int)
  x.targetOk liftCeiling (h + direction travel * (min step travel.natAbs : Nat))
    && x.targetOk liftCeiling (h + travel)

/-- A member lets a run start: LIVE, inhibit off, no condition (R117). -/
def Point.mayRun (x : Point) : Bool := x.health == .live && !x.inhibit && x.conditions == 0

/-- The lowest constraint in the members' indexes whose state passes a test (R117, R131). -/
def State.memberConstraint (s : State) (g : GroupId) (f : ConstraintState → Bool) : Option ConstraintId :=
  (ids 128).find? fun c =>
    (s.members g).any (fun p => (s.point p).index.contains c) && (s.constraint c).any fun x => f x.state

/-- An accepted START (R118, R54). -/
def State.beginRun (s : State) (g : GroupId) (o : StartOps) : State :=
  let members := s.members g
  let s1 := s.mapPoints fun p x => if members.contains p then { x with base := x.height } else x
  let s2 := s1.setGroup g { s1.group g with
    run := some ⟨o.travel, o.step, o.gap, ceilDiv o.travel.natAbs o.step, 0, 0⟩ }
  (s2.startStage g).enterService

/-- START's state checks in their order, and what it does where none fails (R117, R118). -/
def startChecked (g : GroupId) (o : StartOps) (s : State) : Answer × State :=
  if !((s.group g).state == .formed || (s.group g).state == .arrived) then
    refuseFor s .refusedState (.groupState (s.group g).state)
  else if s.stop then refuse s .refusedState
  else
    match s.assertedLine .pitGate with
    | some l => refuseFor s .refusedState (.line l)
    | none =>
      match (s.members g).find? fun p => !(s.point p).mayRun with
      | some p => refuseFor s .refusedState (.point p)
      | none =>
        match s.memberConstraint g fun st => st == .breach || st == .blind with
        | some c => refuseFor s .refusedState (.constraint c)
        | none =>
          match (s.group g).members.find? fun b => s.skew.at b with
          | some b => refuseFor s .refusedState (.body b)
          | none => done (s.beginRun g o).settle

/-- START (R116, R117). -/
def startRun (o : StartOps) (s : State) : Answer × State :=
  match fin? 4 o.group with
  | none => refuse s .refusedRange
  | some g =>
    if !StartOps.ok s.limits.maxStep o then refuse s .refusedRange
    else
      match (s.members g).find? fun p => !(s.point p).runOk s.limits.liftCeiling o.travel o.step with
      | some p => refuseFor s .refusedRange (.point p)
      | none => if s.compiling then refuse s .busy else startChecked g o s

/-- The meaning of START. -/
def execStart (ops : Carried StartOps) (s : State) : Host.Outcome State Fault Refusal :=
  .next (s.request 0x41 ops startRun)

/-! ### CONTINUE (R125) -/

/-- CONTINUE (R125). -/
def continueRun (n : Nat) (s : State) : Answer × State :=
  match fin? 4 n with
  | none => refuse s .refusedRange
  | some g =>
    if s.compiling then refuse s .busy
    else if s.mayContinue g then done (s.startStage g).settle
    else refuse s .refusedState

/-- The meaning of CONTINUE. -/
def execContinue (ops : Carried Nat) (s : State) : Host.Outcome State Fault Refusal :=
  .next (s.request 0x42 ops continueRun)

/-! ### AMEND-TRAVEL (R126, R127) -/

/-- The fourth and fifth range checks: the new travel keeps the sign of the run's and does not fall short of
the completed travel (R126). -/
def Group.travelFits (x : Group) (travel : Int) : Bool :=
  x.run.all fun r => direction travel == direction r.travel && decide (r.completed ≤ travel.natAbs)

/-- The sixth range check for one member, where it holds a base height (R126). -/
def Point.finalOk (liftCeiling : Nat) (travel : Int) (x : Point) : Bool :=
  x.base.all fun b => x.targetOk liftCeiling ((b : Int) + travel)

/-- The run after an amendment (R127). -/
def Run.amend (r : Run) (o : AmendTravelOps) : Run :=
  let step := o.step.getD r.step
  { r with
    travel := o.travel
    step := step
    count := r.done + ceilDiv (o.travel.natAbs - r.completed) step }

/-- An accepted AMEND-TRAVEL (R127). -/
def State.amendRun (s : State) (g : GroupId) (o : AmendTravelOps) : State :=
  match (s.group g).run with
  | none => s
  | some r =>
    let r1 := r.amend o
    let x := { s.group g with run := some r1 }
    if r1.count = r1.done then (s.setGroup g { x with state := .arrived }).raiseFlag (.arrived g)
    else s.setGroup g x

/-- AMEND-TRAVEL after its ranges (R126). -/
def amendTravelChecked (g : GroupId) (o : AmendTravelOps) (s : State) : Answer × State :=
  if s.compiling then refuse s .busy
  else
    match (s.group g).state with
    | .staging => refuse s .busy
    | .holding => refuse s .busy
    | .gap => done (s.amendRun g o).settle
    | .free => refuse s .refusedState
    | .formed => refuse s .refusedState
    | .arrived => refuse s .refusedState

/-- AMEND-TRAVEL (R126). -/
def amendTravel (o : AmendTravelOps) (s : State) : Answer × State :=
  match fin? 4 o.group with
  | none => refuse s .refusedRange
  | some g =>
    if !AmendTravelOps.ok s.limits.maxStep o then refuse s .refusedRange
    else if !(s.group g).travelFits o.travel then refuse s .refusedRange
    else
      match (s.members g).find? fun p => !(s.point p).finalOk s.limits.liftCeiling o.travel with
      | some p => refuseFor s .refusedRange (.point p)
      | none => amendTravelChecked g o s

/-- The meaning of AMEND_TRAVEL. -/
def execAmendTravel (ops : Carried AmendTravelOps) (s : State) : Host.Outcome State Fault Refusal :=
  .next (s.request 0x43 ops amendTravel)

/-! ### HOLD (R130) -/

/-- A group in STAGING, GAP or HOLDING, which records claims (R129). -/
def GroupState.claimable : GroupState → Bool
  | .staging => true | .gap => true | .holding => true | .free => false | .formed => false | .arrived => false

/-- HOLD (R130). -/
def holdGroup (n : Nat) (s : State) : Answer × State :=
  match fin? 4 n with
  | none => refuse s .refusedRange
  | some g =>
    if s.compiling then refuse s .busy
    else if (s.group g).state.claimable then done (s.claim g .host).settle
    else refuse s .refusedState

/-- The meaning of HOLD. -/
def execHold (ops : Carried Nat) (s : State) : Host.Outcome State Fault Refusal :=
  .next (s.request 0x44 ops holdGroup)

/-! ### RESUME (R131, R132) -/

/-- No member point of a group has a condition (R131). -/
def State.noCondition (s : State) (g : GroupId) (c : Condition) : Bool :=
  (s.members g).all fun p => !(s.point p).hasCondition c

/-- A cause's test (R131). -/
def State.removable (s : State) (g : GroupId) : HoldCause → Bool
  | .host => true
  | .stall => true
  | .line => !s.holdButtonAsserted g
  | .stop => !s.stop
  | .gate => (s.assertedLine .pitGate).isNone
  | .breach => (s.memberConstraint g (· == .breach)).isNone
  | .blind => (s.memberConstraint g (· == .blind)).isNone
  | .overload => s.noCondition g .overload
  | .nodeStop => s.noCondition g .nodeStop
  | .nodeFault => s.noCondition g .nodeFault
  | .stroke => s.noCondition g .stroke
  | .skew => (s.group g).members.all fun b => !s.skew.at b
  | .lost => (s.members g).all fun p => (s.point p).health == .live

/-- The causes of a group that are not removable, as a mask (R131, R187). -/
def State.standingCauses (s : State) (g : GroupId) : BitVec 13 :=
  allCauses.foldl (fun m c => if (s.group g).hasCause c && !s.removable g c then insertBit m c.bit else m) 0

/-- The held stage goes on: a fresh timer, follow holding evaluated, and the stage completed where every
member has arrived (R132). -/
def State.resumeStage (s : State) (g : GroupId) : State :=
  let s1 := s.setGroup g { s.group g with
    state := .staging, heldFrom := none, causes := 0
    timer := some (s.limits.stageTimeout * Config.usPerSecond) }
  let s2 := s1.evalFollow g
  if s2.allArrived g then s2.completeStage g else s2

/-- An accepted RESUME (R132). -/
def State.resumeFrom (s : State) (g : GroupId) : State :=
  match (s.group g).heldFrom with
  | some .staging => s.resumeStage g
  | some .gap => s.setGroup g { s.group g with state := .gap, heldFrom := none, causes := 0, timer := none }
  | none => s

/-- RESUME (R131). -/
def resumeGroup (n : Nat) (s : State) : Answer × State :=
  match fin? 4 n with
  | none => refuse s .refusedRange
  | some g =>
    if s.compiling then refuse s .busy
    else if (s.group g).state ≠ .holding then refuse s .refusedState
    else if s.standingCauses g ≠ 0 then refuseFor s .refusedState (.causes (s.standingCauses g))
    else done (s.resumeFrom g).settle

/-- The meaning of RESUME. -/
def execResume (ops : Carried Nat) (s : State) : Host.Outcome State Fault Refusal :=
  .next (s.request 0x45 ops resumeGroup)

/-! ### DISBAND (R137) and READ-GROUP (R139) -/

/-- An accepted DISBAND (R137). -/
def State.disband (s : State) (g : GroupId) : State :=
  let points := s.members g
  let bodies := (s.group g).members
  let s1 := s.mapBodies fun b x => if bodies.contains b then { x with group := none } else x
  let s2 := s1.mapPoints fun p x =>
    if points.contains p then
      { x with group := none, base := none, target := none, arrived := false, followHeld := false }
    else x
  s2.setGroup g Group.free

/-- DISBAND (R137). -/
def disbandGroup (n : Nat) (s : State) : Answer × State :=
  match fin? 4 n with
  | none => refuse s .refusedRange
  | some g =>
    if s.compiling then refuse s .busy
    else if (s.group g).state == .formed || (s.group g).state == .arrived then done (s.disband g).settle
    else refuse s .refusedState

/-- The meaning of DISBAND. -/
def execDisband (ops : Carried Nat) (s : State) : Host.Outcome State Fault Refusal :=
  .next (s.request 0x46 ops disbandGroup)

/-- READ-GROUP (R139). -/
def readGroup (n : Nat) (s : State) : Answer × State :=
  match fin? 4 n with
  | none => refuse s .refusedRange
  | some g => doneWith s (groupPayload s g)

/-- The meaning of READ_GROUP. -/
def execReadGroup (ops : Carried Nat) (s : State) : Host.Outcome State Fault Refusal :=
  .next (s.request 0x47 ops readGroup)

/-! ### The stage timer's expiry (R128, R134) -/

/-- A running stage timer expires: it stays at zero, and makes a STALL claim (R128). A timer that does not
run makes no expiry (log 5). -/
def State.expireStage (s : State) (g : GroupId) : State :=
  let x := s.group g
  if x.state = .staging ∧ x.timer.isSome then ((s.setGroup g { x with timer := some 0 }).claim g .stall).settle
  else s

/-- The meaning of STAGE_TIMER_EXPIRY. -/
def execStageTimerExpiry (g : GroupId) (s : State) : Host.Outcome State Fault Refusal :=
  .next (s.event fun t => t.expireStage g)

/-! ### What the group engine does with a stored report (R123) -/

/-- The report finds the member arrived: its progress is at least the target progress minus the arrival band (R121). -/
def State.arrives (s : State) (g : GroupId) (p : PointId) : Bool :=
  match (s.group g).run with
  | none => false
  | some r => (r.targetProgress : Int) - (s.limits.arrivalBand : Int) ≤ (s.point p).progress r.travel

/-- The reporting member's arrival is judged: its arrived flag set and its follow-held flag cleared (R121). -/
def State.judgeArrival (s : State) (g : GroupId) (p : PointId) : State :=
  if s.arrives g p then s.setPoint p { s.point p with arrived := true, followHeld := false } else s

/-- The reporting member's arrival is judged during a hold: its arrived flag is set, and every follow-held flag is left
as it stands (R123; log 31). -/
def State.recordArrival (s : State) (g : GroupId) (p : PointId) : State :=
  if s.arrives g p then s.setPoint p { s.point p with arrived := true } else s

/-- The group engine takes a report stored for a point (R123; log 31). -/
def State.groupTakes (s : State) (p : PointId) : State :=
  match (s.point p).group with
  | none => s
  | some g =>
    match (s.group g).state, (s.group g).heldFrom with
    | .staging, _ =>
      let s1 := (s.judgeArrival g p).evalFollow g
      if s1.allArrived g then s1.completeStage g else s1
    | .holding, some .staging => s.recordArrival g p
    | .holding, some .gap => s
    | .holding, none => s
    | .free, _ => s
    | .formed, _ => s
    | .gap, _ => s
    | .arrived, _ => s

end Sys2Proof.Machine
end

