-- ==== Sys2Proof/Machine/Permits.lean ====
section
/-! DEFINITION. The permit unit (chapter 7): jog requests, the jog's arrival and timer, the stop latch. -/

namespace Sys2Proof.Machine

/-! ### JOG (R145 to R147) -/

/-- The jog target of a point (R145). -/
def Point.jogTarget (x : Point) (distance : Int) : Int := (x.height.getD 0 : Int) + distance

/-- The third range check, made where the point holds a height, a rest height and a rated stroke (R145). -/
def Point.jogOk (liftCeiling : Nat) (distance : Int) (x : Point) : Bool :=
  !(x.height.isSome && x.rest.isSome && x.ratedStroke.isSome) || x.targetOk liftCeiling (x.jogTarget distance)

/-- The lowest constraint of a point's index in WARN, BREACH or BLIND (R146). -/
def State.jogConstraint (s : State) (p : PointId) : Option ConstraintId :=
  (ids 128).find? fun c => (s.point p).index.contains c &&
    (s.constraint c).any fun x => x.state == .warn || x.state == .breach || x.state == .blind

/-- An accepted JOG (R147, R54). -/
def State.beginJog (s : State) (p : PointId) (distance : Int) : State :=
  let x := s.point p
  let s1 := s.setPoint p { x with target := some (x.jogTarget distance).toNat }
  let s2 := { s1 with jog := { s1.jog with
    active := some ⟨p, distance, x.height.getD 0, s.limits.stageTimeout * Config.usPerSecond⟩ } }
  s2.enterService

/-- JOG's state checks in their order, and what it does where none fails (R146, R147). -/
def jogChecked (p : PointId) (distance : Int) (s : State) : Answer × State :=
  let x := s.point p
  if x.life ≠ .planned then refuse s .refusedState
  else if x.health ≠ .live then refuse s .refusedState
  else
    match x.group with
    | some g => refuseFor s .refusedState (.group g)
    | none =>
      if x.inhibit then refuse s .refusedState
      else
        match allConditions.find? x.hasCondition with
        | some c => refuseFor s .refusedState (.condition c)
        | none =>
          if s.stop then refuse s .refusedState
          else
            match s.assertedLine .pitGate with
            | some l => refuseFor s .refusedState (.line l)
            | none =>
              match s.jogConstraint p with
              | some c => refuseFor s .refusedState (.constraint c)
              | none => done (s.beginJog p distance).settle

/-- JOG (R145, R146). -/
def jogPoint (o : JogOps) (s : State) : Answer × State :=
  match fin? 48 o.point with
  | none => refuse s .refusedRange
  | some p =>
    if !JogOps.ok s.limits.maxStep o then refuse s .refusedRange
    else if !(s.point p).jogOk s.limits.liftCeiling o.distance then refuseFor s .refusedRange (.point p)
    else if s.plan.state = .compiling then refuse s .busy
    else
      match s.jog.active with
      | some j => refuseFor s .busy (.point j.point)
      | none => jogChecked p o.distance s

/-- The meaning of JOG. -/
def execJog (ops : Carried JogOps) (s : State) : Host.Outcome State Fault Refusal :=
  .next (s.request 0x50 ops jogPoint)

/-! ### JOG-CANCEL (R151), STOP (R156), CLEAR-STOP (R157), READ-JOG (R152) -/

/-- JOG-CANCEL (R151). -/
def jogCancel (_ : Unit) (s : State) : Answer × State :=
  if s.plan.state = .compiling then refuse s .busy
  else
    match s.jog.active with
    | none => refuse s .refusedState
    | some j => doneWith (s.endJog .cancelled).settle (Detail.point j.point).bytes

/-- The meaning of JOG_CANCEL. -/
def execJogCancel (ops : Carried Unit) (s : State) : Host.Outcome State Fault Refusal :=
  .next (s.request 0x51 ops jogCancel)

/-- STOP (R155, R156). -/
def stopRequest (_ : Unit) (s : State) : Answer × State := done s.setLatch.settle

/-- The meaning of STOP. -/
def execStop (ops : Carried Unit) (s : State) : Host.Outcome State Fault Refusal :=
  .next (s.request 0x52 ops stopRequest)

/-- CLEAR-STOP (R157). -/
def clearStop (_ : Unit) (s : State) : Answer × State :=
  match s.assertedLine .shedStop with
  | some l => refuseFor s .refusedState (.line l)
  | none => done { s with stop := false }.settle

/-- The meaning of CLEAR_STOP. -/
def execClearStop (ops : Carried Unit) (s : State) : Host.Outcome State Fault Refusal :=
  .next (s.request 0x53 ops clearStop)

/-- READ-JOG (R152). -/
def readJog (_ : Unit) (s : State) : Answer × State := doneWith s (jogPayload s)

/-- The meaning of READ_JOG. -/
def execReadJog (ops : Carried Unit) (s : State) : Host.Outcome State Fault Refusal :=
  .next (s.request 0x54 ops readJog)

/-! ### The jog's arrival and its timer (R148) -/

/-- The permit unit takes a stored report: the jog of that point ends with DONE where it has arrived (R148). -/
def State.jogTakes (s : State) (p : PointId) : State :=
  match s.jog.active with
  | none => s
  | some j =>
    if j.point = p ∧ (j.distance.natAbs : Int) - (s.limits.arrivalBand : Int) ≤ j.progress (s.point p) then
      s.endJog .done
    else s

/-- The meaning of JOG_TIMER_EXPIRY: an ACTIVE jog ends with STALL; an IDLE slot has no timer (R148, R149). -/
def execJogTimerExpiry (s : State) : Host.Outcome State Fault Refusal :=
  .next (s.event fun t => if t.jog.active.isSome then (t.endJog .stall).settle else t)

end Sys2Proof.Machine
end

