-- ==== Sys2Proof/Machine/Points.lean ====
section
/-! DEFINITION. The requests on points (chapter 2) and the address selector's scope (R179). -/

namespace Sys2Proof.Machine

/-- The column address an operand names, where it lies in range. -/
def address? (a : AddressOp) : Option Address :=
  if AddressOp.ok a then
    match fin? 4 a.link, fin? 16 a.node with
    | some l, some n => some ⟨l, n⟩
    | _, _ => none
  else none

/-- The non-VACANT point that holds a column address (R24, R45). -/
def State.holderOf (s : State) (a : Address) : Option PointId :=
  (ids 48).find? fun p => (s.point p).life != .vacant && (s.point p).address == some a

/-- The non-VACANT point other than `p` that holds a column address (R24). -/
def State.otherHolder (s : State) (p : PointId) (a : Address) : Option PointId :=
  (ids 48).find? fun q => q != p && (s.point q).life != .vacant && (s.point q).address == some a

/-! ### ENROL-POINT (R25) -/

/-- An accepted ENROL-POINT (R25). -/
def State.enrol (s : State) (p : PointId) (a : Address) : State :=
  let s1 := s.setPoint p { Point.vacant with life := .draft, address := some a, bindOutcome := .pending }
  s1.setEngine a.link ((s1.engine a.link).join p)

/-- ENROL-POINT (R25, R39). -/
def enrolPoint (o : EnrolOps) (s : State) : Answer × State :=
  match fin? 48 o.point, address? o.address with
  | some p, some a =>
    if (s.point p).life ≠ .vacant then refuseFor s .refusedState (.point p)
    else
      match s.holderOf a with
      | some q => refuseFor s .conflict (.point q)
      | none => done (s.enrol p a).settle
  | _, _ => refuse s .refusedRange

/-- The meaning of ENROL_POINT. -/
def execEnrolPoint (ops : Carried EnrolOps) (s : State) : Host.Outcome State Fault Refusal :=
  .next (s.request 0x10 ops enrolPoint)

/-! ### BIND (R28) -/

/-- An accepted BIND: bind outcome PENDING and a probe queued (R28). -/
def State.rebind (s : State) (p : PointId) (a : Address) : State :=
  let s1 := s.setPoint p { s.point p with bindOutcome := .pending }
  s1.setEngine a.link ((s1.engine a.link).queueProbe p)

/-- BIND (R28, R39). -/
def bindPoint (n : Nat) (s : State) : Answer × State :=
  match fin? 48 n with
  | none => refuse s .refusedRange
  | some p =>
    if (s.point p).bindOutcome = .pending then refuseFor s .busy (.point p)
    else if (s.point p).life ≠ .draft then refuseFor s .refusedState (.point p)
    else
      match (s.point p).address with
      | some a => accepted (s.rebind p a).settle
      | none => refuseFor s .refusedState (.point p)

/-- The meaning of BIND. -/
def execBind (ops : Carried Nat) (s : State) : Host.Outcome State Fault Refusal :=
  .next (s.request 0x11 ops bindPoint)

/-! ### RETIRE-POINT (R42) -/

/-- The lowest CUSTOM constraint that has the point as a term (R42). -/
def State.customOn (s : State) (p : PointId) : Option ConstraintId :=
  (ids 128).find? fun c => (s.constraint c).any fun x => x.kind == .custom && x.terms.points.contains p

/-- An accepted RETIRE-POINT: the record becomes VACANT and the point leaves its link (R42, R75). -/
def State.retire (s : State) (p : PointId) : State :=
  let old := (s.point p).address
  let s1 := s.setPoint p Point.vacant
  match old with
  | some a => (s1.setEngine a.link ((s1.engine a.link).without p)).idleIfEmpty a.link
  | none => s1

/-- RETIRE-POINT (R42). -/
def retirePoint (n : Nat) (s : State) : Answer × State :=
  match fin? 48 n with
  | none => refuse s .refusedRange
  | some p =>
    if (s.point p).life = .vacant then refuseFor s .refusedState (.point p)
    else
      match (s.point p).seat with
      | some w => refuseFor s .refusedState (.body w.body)
      | none =>
        match s.customOn p with
        | some c => refuseFor s .refusedState (.constraint c)
        | none => done (s.retire p).settle

/-- The meaning of RETIRE_POINT. -/
def execRetirePoint (ops : Carried Nat) (s : State) : Host.Outcome State Fault Refusal :=
  .next (s.request 0x12 ops retirePoint)

/-! ### RECAPTURE-REST (R35) -/

/-- An accepted RECAPTURE-REST: the rest height is the reported height, and in a COMPILED plan the point's
constraints are evaluated (R35). -/
def State.recapture (s : State) (p : PointId) : State :=
  let s1 := s.setPoint p { s.point p with rest := (s.point p).height }
  s1.evaluateIndex p

/-- RECAPTURE-REST (R35, R39). -/
def recaptureRest (n : Nat) (s : State) : Answer × State :=
  match fin? 48 n with
  | none => refuse s .refusedRange
  | some p =>
    if s.plan.state = .inService then refuse s .refusedLocked
    else if ((s.point p).life = .bound ∨ (s.point p).life = .planned) ∧ (s.point p).health = .live then
      done (s.recapture p).settle
    else refuseFor s .refusedState (.point p)

/-- The meaning of RECAPTURE_REST. -/
def execRecaptureRest (ops : Carried Nat) (s : State) : Host.Outcome State Fault Refusal :=
  .next (s.request 0x13 ops recaptureRest)

/-! ### AMEND-POINT (R40, R41, R179) -/

/-- The scope set, in ascending id; `none` where a BODY or GROUP scope names nothing (R179). -/
def State.scopeSet (s : State) : Option (List PointId) :=
  match s.port.scope with
  | .one => some [s.port.focus]
  | .body =>
    match (s.point s.port.focus).seat with
    | some w =>
      match s.body w.body with
      | some x => some ((ids 48).filter fun p => x.corners.contains p)
      | none => none
    | none => none
  | .group =>
    match (s.point s.port.focus).group with
    | some g => some (s.members g)
    | none => none
  | .all => some ((ids 48).filter fun p => (s.point p).life == .bound || (s.point p).life == .planned)

/-- A point holds a report's fields: it is BOUND or PLANNED. -/
def Point.isBound (x : Point) : Bool := x.life == .bound || x.life == .planned

/-- A point whose rated capacity is below a derating refuses it (R41). -/
def Point.refusesDerating (v : Nat) (x : Point) : Bool := x.ratedCapacity.any (· < v)

/-- The point moves to a column address and is unbound (R31, R40). -/
def State.readdress (s : State) (p : PointId) (a : Address) : State :=
  let old := (s.point p).address
  let s1 := s.setPoint p { (s.point p).unbind with address := some a }
  let s2 :=
    match old with
    | some o => s1.setEngine o.link ((s1.engine o.link).without p)
    | none => s1
  let s3 :=
    match old with
    | some o => if o.link = a.link then s2 else s2.idleIfEmpty o.link
    | none => s2
  let s4 := s3.setEngine a.link ((s3.engine a.link).join p)
  s4.judgeSkewOf p

/-- The inhibit value given is written on a list of points (R41). -/
def State.writeInhibit (s : State) (set : List PointId) (v : Option Bool) : State :=
  match v with
  | none => s
  | some b => s.mapPoints fun p x => if set.contains p then { x with inhibit := b } else x

/-- The derating given is written on a list of points, and OVERLOAD is judged where it changed (R41, R104). -/
def State.writeDerating (s : State) (set : List PointId) (v : Option Nat) : State :=
  match v with
  | none => s
  | some d =>
    let changed := set.filter fun p => (s.point p).derated != some d
    let s1 := s.mapPoints fun p x => if set.contains p then { x with derated := some d } else x
    changed.foldl State.judgeOverload s1

/-- AMEND-POINT with a column address: it acts on the focus point (R40). -/
def amendAddress (o : AmendPointOps) (a : Address) (s : State) : Answer × State :=
  let p := s.port.focus
  let x := s.point p
  if s.port.scope ≠ .one then refuse s .refusedRange
  else if s.plan.state = .inService then refuse s .refusedLocked
  else if x.life = .planned then refuseFor s .refusedLocked (.point p)
  else if s.plan.state = .compiling then refuse s .busy
  else if x.life = .vacant then refuseFor s .refusedState (.point p)
  else
    match s.otherHolder p a with
    | some q => refuseFor s .conflict (.point q)
    | none =>
      if x.address = some a ∧ (o.inhibit = none ∨ o.inhibit = some x.inhibit) then done s
      else
        let s1 := if x.address = some a then s else s.readdress p a
        done (s1.writeInhibit [p] o.inhibit).settle

/-- AMEND-POINT without a column address: it acts on every point of the scope set (R41, R179). -/
def amendScope (o : AmendPointOps) (s : State) : Answer × State :=
  match s.scopeSet with
  | none => refuseFor s .refusedState (.point s.port.focus)
  | some set =>
    match o.derated.bind fun v => set.find? fun p => (s.point p).refusesDerating v with
    | some p => refuseFor s .refusedRange (.point p)
    | none =>
      match set.find? fun p =>
          (o.derated.isSome && !(s.point p).isBound) || (o.inhibit.isSome && (s.point p).life == .vacant) with
      | some p => refuseFor s .refusedState (.point p)
      | none =>
        if set.all fun p =>
            (o.derated.isNone || o.derated == (s.point p).derated)
              && (o.inhibit.isNone || o.inhibit == some (s.point p).inhibit) then done s
        else done ((s.writeDerating set o.derated).writeInhibit set o.inhibit).settle

/-- AMEND-POINT (R40, R41). -/
def amendPoint (o : AmendPointOps) (s : State) : Answer × State :=
  if !o.ok then refuse s .refusedRange
  else
    match o.address with
    | some op =>
      match address? op with
      | some a => amendAddress o a s
      | none => refuse s .refusedRange
    | none => amendScope o s

/-- The meaning of AMEND_POINT. -/
def execAmendPoint (ops : Carried AmendPointOps) (s : State) : Host.Outcome State Fault Refusal :=
  .next (s.request 0x14 ops amendPoint)

/-! ### READ-POINT (R44) and FIND-POINT (R45) -/

/-- READ-POINT (R44). -/
def readPoint (_ : Unit) (s : State) : Answer × State := doneWith s (pointPayload s s.port.focus)

/-- The meaning of READ_POINT. -/
def execReadPoint (ops : Carried Unit) (s : State) : Host.Outcome State Fault Refusal :=
  .next (s.request 0x15 ops readPoint)

/-- The point that names a body and corner (R3, R45). -/
def State.pointAtCorner (s : State) (b : BodyId) (c : Corner) : Option PointId :=
  (ids 48).find? fun p => (s.point p).seat == some ⟨b, c⟩

/-- What FIND-POINT looks for: out of range, or the result of the lookup (R45). -/
def State.find (s : State) : FindOps → Option (Option PointId)
  | .byAddress op => (address? op).map s.holderOf
  | .byCorner n c => (fin? 12 n).map fun b => s.pointAtCorner b c

/-- FIND-POINT (R45). -/
def findPoint (o : FindOps) (s : State) : Answer × State :=
  match s.find o with
  | none => refuse s .refusedRange
  | some none => (⟨.notFound, []⟩, s)
  | some (some p) => doneWith { s with port := { s.port with focus := p } } (Detail.point p).bytes

/-- The meaning of FIND_POINT. -/
def execFindPoint (ops : Carried FindOps) (s : State) : Host.Outcome State Fault Refusal :=
  .next (s.request 0x16 ops findPoint)

end Sys2Proof.Machine
end

