-- ==== Sys2Proof/Machine/Links.lean ====
section
/-! DEFINITION. The link engines (chapter 4): the choice of a slot, the messages sent, the answers taken,
the loss and return of a point, the probe and the bind, and LINK-RESET with its break. -/

namespace Sys2Proof.Machine

/-! ### The choice of a slot (R77) -/

/-- What an engine sends in the next slot (R77). -/
inductive Choice
  | allStop | poll (r : RosterEntry) | probe (p : PointId) | nothing
  deriving DecidableEq, Repr

/-- The roster entry next above the cycle position, or the lowest where the position is absent (R77, step 2). -/
def Engine.nextPoll (e : Engine) : Option RosterEntry :=
  e.roster.find? fun r => e.cycle.all fun c => c.val < r.node.val

/-- The choice at the start of a slot (R77). -/
def Engine.choose (e : Engine) : Choice :=
  if e.stopPending then .allStop
  else
    match e.nextPoll, e.queue, e.cycle, e.roster with
    | some r, _, _, _ => .poll r
    | none, p :: _, _, _ => .probe p
    | none, [], some _, r :: _ => .poll r
    | none, [], some _, [] => .nothing
    | none, [], none, _ => .nothing

/-- A slot may start: no answer is awaited. A command that starts a slot over an ALL-STOP still in flight tells that
its slot has ended (R76; log 19). -/
def Engine.slotFree (e : Engine) : Bool := e.exchange == none || e.exchange == some .allStop

/-- The node address of a point; 0 where it has no column address (log 28). -/
def State.nodeAt (s : State) (p : PointId) : NodeAddr := ((s.point p).address.map (·.node)).getD 0

/-! ### POLL, PROBE, ALL-STOP (R77, R78, R85, R88) -/

/-- A RUNNING engine sends a POLL (R77, R78). A slot of another kind is not this command's (log 5). -/
def State.sendPoll (s : State) (l : LinkId) : State :=
  let e := s.engine l
  if e.link = .running ∧ e.slotFree then
    match e.choose with
    | .poll r =>
      let x := s.point r.point
      s.setEngine l { e with
        cycle := some r.node
        exchange := some (.poll r.point r.node x.permit x.target s.stop false)
        slotLeft := some Config.slotUs }
    | .allStop => s
    | .probe _ => s
    | .nothing => s
  else s

/-- The meaning of POLL. -/
def execPoll (l : LinkId) (s : State) : Host.Outcome State Fault Refusal := .next (s.event fun t => t.sendPoll l)

/-- A RUNNING engine sends a PROBE for the head of its queue, which uses one attempt (R77, R85). -/
def State.sendProbe (s : State) (l : LinkId) : State :=
  let e := s.engine l
  if e.link = .running ∧ e.slotFree then
    match e.choose with
    | .probe p =>
      s.setEngine l { e with
        cycle := none
        attempts := e.attempts + 1
        exchange := some (.probe p (s.nodeAt p) false)
        slotLeft := some Config.slotUs }
    | .allStop => s
    | .poll _ => s
    | .nothing => s
  else s

/-- The meaning of PROBE. -/
def execProbe (l : LinkId) (s : State) : Host.Outcome State Fault Refusal := .next (s.event fun t => t.sendProbe l)

/-- An engine with stop pending sends an ALL-STOP, in any link state but RESETTING (R88). -/
def State.sendAllStop (s : State) (l : LinkId) : State :=
  let e := s.engine l
  if e.link ≠ .resetting ∧ e.slotFree ∧ e.stopPending then
    s.setEngine l { e with stopPending := false, exchange := some .allStop, slotLeft := some Config.slotUs }
  else s

/-- The meaning of ALL_STOP. -/
def execAllStop (l : LinkId) (s : State) : Host.Outcome State Fault Refusal := .next (s.event fun t => t.sendAllStop l)

/-! ### The good run (R74, R82) -/

/-- The good run of a point's roster entry. -/
def Engine.goodRunOf (e : Engine) (p : PointId) : Nat := ((e.roster.find? fun r => r.point == p).map (·.goodRun)).getD 0

/-- The good run of a point's roster entry is written. -/
def Engine.setGoodRun (e : Engine) (p : PointId) (n : Nat) : Engine :=
  { e with roster := e.roster.map fun r => if r.point = p then { r with goodRun := n } else r }

/-- The good run of a point's roster entry is written, on a link. -/
def State.setGoodRun (s : State) (l : LinkId) (p : PointId) (n : Nat) : State :=
  s.setEngine l ((s.engine l).setGoodRun p n)

/-- The slot ends: its exchange is no longer in flight (R76). -/
def Engine.slotOver (e : Engine) : Engine := Engine.rested { e with exchange := none, slotLeft := none }

/-- The slot of a link ends (R76). -/
def State.endSlot (s : State) (l : LinkId) : State := s.setEngine l (s.engine l).slotOver

/-! ### A missed reply (R81) -/

/-- A LIVE point becomes LOST (R81): health, good run, flag, claim, then the monitor's evaluation and the end
of a jog of the point, in one order or the other (R150). -/
def State.lose (s : State) (l : LinkId) (p : PointId) : State :=
  let s1 := (s.setPoint p { s.point p with health := .lost }).setGoodRun l p 0
  let s2 := (s1.raiseFlag .lost).claimOn (s1.point p).group .lost
  chooseOrder ((s2.evaluateIndex p).jogNotice p .lost) [(s2.jogNotice p .lost).evaluateIndex p]

/-- A missed reply is counted against the point of a slot (R81). -/
def State.missReply (s : State) (l : LinkId) (p : PointId) : State :=
  let x := s.point p
  let n := min Config.missedToLose (x.missed + 1)
  let s1 := s.setPoint p { x with missed := n }
  if x.health = .lost then s1.setGoodRun l p 0
  else if x.health = .live ∧ n = Config.missedToLose then s1.lose l p
  else s1

/-- A poll slot ends with no answer; a slot whose answer is to be discarded is not counted (R81, R83). -/
def State.pollUnanswered (s : State) (l : LinkId) : State :=
  match (s.engine l).exchange with
  | some (.poll p _ _ _ _ discard) =>
    let s1 := s.endSlot l
    if discard then s1 else (s1.missReply l p).settle
  | some (.probe ..) => s
  | some .allStop => s
  | none => s

/-- The meaning of MISSED_REPLY. -/
def execMissedReply (l : LinkId) (s : State) : Host.Outcome State Fault Refusal :=
  .next (s.event fun t => t.pollUnanswered l)

/-! ### An unanswered probe (R85) -/

/-- The third unanswered attempt ends the probe with NO_ANSWER (R27, R85). -/
def State.noAnswer (s : State) (l : LinkId) (p : PointId) : State :=
  let s1 := s.setPoint p { s.point p with bindOutcome := .noAnswer }
  (s1.setEngine l ((s1.engine l).without p)).raiseFlag .bind

/-- A probe slot ends with no answer; a slot whose answer is to be discarded is not counted (R83, R85). -/
def State.probeUnanswered (s : State) (l : LinkId) : State :=
  match (s.engine l).exchange with
  | some (.probe p _ discard) =>
    let s1 := s.endSlot l
    if discard then s1
    else if Config.probeAttempts ≤ (s1.engine l).attempts then (s1.noAnswer l p).settle
    else s1
  | some (.poll ..) => s
  | some .allStop => s
  | none => s

/-- The meaning of PROBE_UNANSWERED. -/
def execProbeUnanswered (l : LinkId) (s : State) : Host.Outcome State Fault Refusal :=
  .next (s.event fun t => t.probeUnanswered l)

/-! ### A reply (R79, R80, R82) -/

/-- A REPLY's address and ranges (R76, R79). -/
def goodReply (n : NodeAddr) (f : ReplyFields) : Bool :=
  f.node == n.val && f.height ≤ Config.maxHeight && f.load ≤ Config.maxLoad

/-- The report fields of a point written from a REPLY (R80); flag positions that name no flag are ignored (R79). -/
def Point.report (x : Point) (f : ReplyFields) : Point :=
  { x with height := some f.height, load := some f.load, flags := f.flags.setWidth 4, missed := 0 }

/-- A report is stored, with the good run of a LOST point advanced and its return to LIVE (R80, R82). -/
def State.storeReport (s : State) (l : LinkId) (p : PointId) (f : ReplyFields) : State :=
  let x := s.point p
  let s1 := s.setPoint p (x.report f)
  if x.health ≠ .lost then s1
  else if (s.engine l).goodRunOf p = 0 then s1.setGoodRun l p 1
  else
    let s2 := s1.setPoint p { s1.point p with health := .live }
    (s2.setGoodRun l p 0).raiseFlag .found

/-- The three blocks take a stored report, in an order the spec leaves open (R80, R133, R150). -/
def State.handOn (s : State) (p : PointId) (permit : Permit) : State :=
  chooseOrder (((s.monitorConditionsFirst p permit).groupTakes p).jogTakes p)
    [((s.monitorConstraintsFirst p permit).groupTakes p).jogTakes p,
     ((s.groupTakes p).jogTakes p).monitorConditionsFirst p permit,
     ((s.groupTakes p).jogTakes p).monitorConstraintsFirst p permit]

/-- A good reply credited to its point (R80). -/
def State.takeReport (s : State) (l : LinkId) (p : PointId) (permit : Permit) (f : ReplyFields) : State :=
  ((s.storeReport l p f).handOn p permit).settle

/-- A REPLY frame, the first in a reply window. In a poll slot it is the slot's answer where it is good, and no
answer otherwise; in a probe slot it is of the wrong length and so no answer; elsewhere it is ignored (R76, R79,
R83, R86; log 21). -/
def State.takeReply (s : State) (l : LinkId) (f : ReplyFields) : State :=
  match (s.engine l).exchange with
  | some (.poll p n permit _ _ discard) =>
    if !goodReply n f then s.pollUnanswered l
    else
      let s1 := s.endSlot l
      if discard then s1 else s1.takeReport l p permit f
  | some (.probe ..) => s.probeUnanswered l
  | some .allStop => s
  | none => s

/-- The meaning of REPLY. -/
def execReply (l : LinkId) (f : ReplyFields) (s : State) : Host.Outcome State Fault Refusal :=
  .next (s.event fun t => t.takeReply l f)

/-! ### An announce and the bind (R26, R86) -/

/-- An ANNOUNCE's address and ranges (R76, R86). -/
def goodAnnounce (n : NodeAddr) (f : AnnounceFields) : Bool :=
  f.node == n.val && f.height ≤ Config.maxHeight && Config.minRatedCapacity ≤ f.capacity
    && Config.minRatedStroke ≤ f.stroke

/-- The record of a point at its bind (R26). -/
def Point.bound (x : Point) (f : AnnounceFields) : Point :=
  { x with
    life := .bound
    health := .live
    bindOutcome := .bound
    ratedCapacity := some (min f.capacity Config.maxLoad)
    ratedStroke := some (min f.stroke Config.maxStroke)
    nodeClass := some (f.nodeClass % 16)
    derated := some (min f.capacity Config.maxLoad)
    rest := some f.height
    height := some f.height
    missed := 0 }

/-- A roster entry joins in ascending node address (R74). -/
def rosterInsert (r : RosterEntry) : List RosterEntry → List RosterEntry
  | [] => [r]
  | a :: l => if r.node.val < a.node.val then r :: a :: l else a :: rosterInsert r l

/-- A good announce credited to its point binds it (R26, R86). -/
def State.bindAnnounced (s : State) (l : LinkId) (p : PointId) (n : NodeAddr) (f : AnnounceFields) : State :=
  let s1 := s.setPoint p ((s.point p).bound f)
  let e := (s1.engine l).without p
  (s1.setEngine l { e with roster := rosterInsert ⟨n, p, 0⟩ e.roster }).raiseFlag .bind

/-- An ANNOUNCE frame, the first in a reply window: the answer of a probe slot where it is good, no answer
otherwise, of the wrong length in a poll slot, ignored elsewhere (R76, R79, R83, R86). -/
def State.takeAnnounce (s : State) (l : LinkId) (f : AnnounceFields) : State :=
  match (s.engine l).exchange with
  | some (.probe p n discard) =>
    if !goodAnnounce n f then s.probeUnanswered l
    else
      let s1 := s.endSlot l
      if discard then s1 else (s1.bindAnnounced l p n f).settle
  | some (.poll ..) => s.pollUnanswered l
  | some .allStop => s
  | none => s

/-- The meaning of ANNOUNCE. -/
def execAnnounce (l : LinkId) (f : AnnounceFields) (s : State) : Host.Outcome State Fault Refusal :=
  .next (s.event fun t => t.takeAnnounce l f)

/-- The meaning of IGNORED_FRAME: a frame that is no slot's answer changes nothing (R76). -/
def execIgnoredFrame (_ : LinkId) (s : State) : Host.Outcome State Fault Refusal := .next s

/-! ### LINK-RESET and its break (R89 to R91) -/

/-- A non-VACANT point stands on a link. -/
def Point.onLink (x : Point) (l : LinkId) : Bool := x.life != .vacant && x.address.any (·.link == l)

/-- The link carries a PLANNED point (R89). -/
def State.carriesPlanned (s : State) (l : LinkId) : Bool :=
  (ids 48).any fun p => (s.point p).onLink l && (s.point p).life == .planned

/-- A point of a link at an accepted LINK-RESET: a BOUND or PLANNED one is unbound, a DRAFT one takes bind
outcome PENDING (R31, R90). -/
def Point.linkReset (x : Point) : Point :=
  if x.isBound then x.unbind else { x with bindOutcome := .pending }

/-- The engine at an accepted LINK-RESET: the break starts at once where no slot is in flight (R90). -/
def Engine.reset (e : Engine) : Engine :=
  { e with
    link := .resetting
    roster := []
    queue := []
    attempts := 0
    cycle := none
    exchange := e.exchange.map Exchange.discard
    breakLeft := if e.exchange.isNone then some Config.breakUs else none }

/-- An accepted LINK-RESET (R90): points, engine, the plan's fall, and the skew entries of the unbound corners
(R107). -/
def State.resetLink (s : State) (l : LinkId) : State :=
  let planned := s.carriesPlanned l
  let unbound := (ids 48).filter fun p => (s.point p).onLink l && (s.point p).isBound
  let s1 := s.mapPoints fun _ x => if x.onLink l then x.linkReset else x
  let s2 := s1.setEngine l (s1.engine l).reset
  let s3 := if planned then s2.planTo .drafted else s2
  unbound.foldl State.judgeSkewOf s3

/-- LINK-RESET (R89). -/
def linkReset (n : Nat) (s : State) : Answer × State :=
  match fin? 4 n with
  | none => refuse s .refusedRange
  | some l =>
    if s.plan.state == .compiling || s.plan.state == .inService then refuse s .refusedState
    else
      match (if s.carriesPlanned l then s.busyGroup else none) with
      | some g => refuseFor s .refusedState (.group g)
      | none =>
        if (s.engine l).link = .resetting then refuse s .refusedState
        else accepted (s.resetLink l).settle

/-- The meaning of LINK_RESET. -/
def execLinkReset (ops : Carried Nat) (s : State) : Host.Outcome State Fault Refusal :=
  .next (s.request 0x70 ops linkReset)

/-- READ-LINK (R93). -/
def readLink (n : Nat) (s : State) : Answer × State :=
  match fin? 4 n with
  | none => refuse s .refusedRange
  | some l => doneWith s (linkPayload s l)

/-- The meaning of READ_LINK. -/
def execReadLink (ops : Carried Nat) (s : State) : Host.Outcome State Fault Refusal :=
  .next (s.request 0x71 ops readLink)

/-- The slot in flight at a LINK-RESET ends, its answer discarded, and the break starts (R83, R90). -/
def State.startBreak (s : State) (l : LinkId) : State :=
  let e := s.engine l
  if e.link = .resetting ∧ e.breakLeft.isNone then
    s.setEngine l { e with exchange := none, slotLeft := none, breakLeft := some Config.breakUs }
  else s

/-- The meaning of BREAK_START. -/
def execBreakStart (l : LinkId) (s : State) : Host.Outcome State Fault Refusal :=
  .next (s.event fun t => t.startBreak l)

/-- The DRAFT points of a link in ascending node address (R91). -/
def State.draftsByNode (s : State) (l : LinkId) : List PointId :=
  (ids 16).filterMap fun n =>
    (ids 48).find? fun p => (s.point p).life == .draft && (s.point p).address == some ⟨l, n⟩

/-- A break is being held (R90). -/
def Engine.breaking (e : Engine) : Bool := e.link == .resetting && e.breakLeft.isSome

/-- The break ends (R91). -/
def State.endBreak (s : State) (l : LinkId) : State :=
  let e := s.engine l
  if !e.breaking then s
  else if s.linkHasPoint l then
    (s.setEngine l { e with
      link := .running, breakLeft := none, exchange := none, slotLeft := none, queue := s.draftsByNode l }).mapPoints
      fun _ x => if x.onLink l && x.life == .draft then { x with bindOutcome := .pending } else x
  else s.setEngine l { e with link := .idle, breakLeft := none, exchange := none, slotLeft := none, queue := [] }

/-- The meaning of BREAK_END. -/
def execBreakEnd (l : LinkId) (s : State) : Host.Outcome State Fault Refusal :=
  .next (s.event fun t => t.endBreak l)

end Sys2Proof.Machine
end

