-- ==== Sys2Proof/Machine/Constraints.lean ====
section
/-! DEFINITION. The requests on constraints (chapter 3, section 3.4). -/

namespace Sys2Proof.Machine

/-- The terms that a list of ids names, where it holds two or four ids in range (R67). -/
def terms? : List Nat → Option Terms
  | [a, b] =>
    match fin? 48 a, fin? 48 b with
    | some a, some b => some (.two a b)
    | _, _ => none
  | [a, b, c, d] =>
    match fin? 48 a, fin? 48 b, fin? 48 c, fin? 48 d with
    | some a, some b, some c, some d => some (.four a b c d)
    | _, _, _, _ => none
  | _ => none

/-- The lowest EMPTY constraint id (R48). -/
def State.lowestEmpty (s : State) : Option ConstraintId := (ids 128).find? fun c => (s.constraint c).isNone

/-- The plan after an accepted ADD- or RETIRE-CONSTRAINT: a COMPILED plan falls to DRAFTED, any other keeps
its state (R68, R70). -/
def State.draftIfCompiled (s : State) : State := if s.plan.state = .compiled then s.planTo .drafted else s

/-! ### ADD-CONSTRAINT (R67, R68) -/

/-- An accepted ADD-CONSTRAINT (R68). -/
def State.addCustom (s : State) (c : ConstraintId) (t : Terms) (limit warn : Nat) : State :=
  (s.setConstraint c (some ⟨.custom, t, limit, warn, .idle, none, none⟩)).draftIfCompiled

/-- ADD-CONSTRAINT (R67, R68). -/
def addConstraint (o : AddConstraintOps) (s : State) : Answer × State :=
  match terms? o.terms with
  | none => refuse s .refusedRange
  | some t =>
    if !o.ok then refuse s .refusedRange
    else if s.plan.state = .inService then refuse s .refusedLocked
    else if s.plan.state = .compiling then refuse s .busy
    else
      match s.busyGroup with
      | some g => refuseFor s .refusedState (.group g)
      | none =>
        match t.points.find? fun p => (s.point p).seat.isNone with
        | some p => refuseFor s .refusedState (.point p)
        | none =>
          match s.lowestEmpty with
          | none => refuse s .refusedFull
          | some c =>
            doneWith (s.addCustom c t o.limit (o.warn.get s.limits.warnPercent)).settle (Detail.constraint c).bytes

/-- The meaning of ADD_CONSTRAINT. -/
def execAddConstraint (ops : Carried AddConstraintOps) (s : State) : Host.Outcome State Fault Refusal :=
  .next (s.request 0x30 ops addConstraint)

/-! ### AMEND-CONSTRAINT (R69, R100) -/

/-- The lock: in service neither field may rise (R55, R69). -/
def State.amendLocked (s : State) (c : ConstraintId) (limit warn : Option Nat) : Bool :=
  s.plan.state == .inService
    && (s.constraint c).any fun x => limit.any (x.limit < ·) || warn.any (x.warn < ·)

/-- An accepted AMEND-CONSTRAINT: the fields given are written, and where one changed in a COMPILED or
IN_SERVICE plan the record is evaluated (R69, R96, R100). -/
def State.amendFields (s : State) (c : ConstraintId) (x : Constraint) (limit warn : Option Nat) : State :=
  let new := { x with limit := limit.getD x.limit, warn := warn.getD x.warn }
  if new = x then s
  else
    let s1 := s.setConstraint c (some new)
    (if s1.judging then s1.evaluate c else s1).settle

/-- AMEND-CONSTRAINT (R69). -/
def amendConstraint (o : AmendConstraintOps) (s : State) : Answer × State :=
  match fin? 128 o.constraint with
  | none => refuse s .refusedRange
  | some c =>
    let warn := o.warn.map (OrDefault.get s.limits.warnPercent)
    if !o.ok then refuse s .refusedRange
    else if s.amendLocked c o.limit warn then refuse s .refusedLocked
    else if s.plan.state = .compiling then refuse s .busy
    else if s.plan.state = .empty then refuse s .refusedState
    else
      match s.constraint c with
      | none => refuse s .refusedState
      | some x => done (s.amendFields c x o.limit warn)

/-- The meaning of AMEND_CONSTRAINT. -/
def execAmendConstraint (ops : Carried AmendConstraintOps) (s : State) : Host.Outcome State Fault Refusal :=
  .next (s.request 0x31 ops amendConstraint)

/-! ### RETIRE-CONSTRAINT (R70) and READ-CONSTRAINT (R71) -/

/-- RETIRE-CONSTRAINT (R70). -/
def retireConstraint (n : Nat) (s : State) : Answer × State :=
  match fin? 128 n with
  | none => refuse s .refusedRange
  | some c =>
    if s.plan.state = .inService then refuse s .refusedLocked
    else if s.plan.state = .compiling then refuse s .busy
    else if !(s.constraint c).any (·.kind == .custom) then refuse s .refusedState
    else
      match s.busyGroup with
      | some g => refuseFor s .refusedState (.group g)
      | none => done (s.setConstraint c none).draftIfCompiled.settle

/-- The meaning of RETIRE_CONSTRAINT. -/
def execRetireConstraint (ops : Carried Nat) (s : State) : Host.Outcome State Fault Refusal :=
  .next (s.request 0x32 ops retireConstraint)

/-- READ-CONSTRAINT (R71). -/
def readConstraint (n : Nat) (s : State) : Answer × State :=
  match fin? 128 n with
  | none => refuse s .refusedRange
  | some c => doneWith s (constraintPayload s c)

/-- The meaning of READ_CONSTRAINT. -/
def execReadConstraint (ops : Carried Nat) (s : State) : Host.Outcome State Fault Refusal :=
  .next (s.request 0x33 ops readConstraint)

end Sys2Proof.Machine
end

