-- ==== Sys2Proof/Machine/Plans.lean ====
section
/-! DEFINITION. The plan: COMPILE, the compilation's completion, RELEASE-PLAN, READ-PLAN (chapter 3). -/

namespace Sys2Proof.Machine

/-! ### COMPILE (R56, R57) -/

/-- Every DERIVED record is made EMPTY (R57). -/
def State.emptyDerived (s : State) : State :=
  { s with constraints := s.constraints.mapAll fun _ c => c.filter fun x => x.kind == .custom }

/-- An accepted COMPILE: the fall if COMPILED, the DERIVED records emptied, joint limit and warn percent
taken (R57). -/
def State.beginCompile (s : State) : State :=
  let s1 := (s.planTo .compiling).emptyDerived
  { s1 with plan := { s1.plan with compilation := some ⟨s.limits.jointLimit, s.limits.warnPercent, Config.compileUs⟩ } }

/-- COMPILE (R56). -/
def compile (_ : Unit) (s : State) : Answer × State :=
  if s.plan.state = .inService then refuse s .refusedLocked
  else if s.plan.state = .compiling then refuse s .busy
  else if s.plan.state = .empty then refuse s .refusedState
  else
    match s.busyGroup with
    | some g => refuseFor s .refusedState (.group g)
    | none => accepted s.beginCompile.settle

/-- The meaning of COMPILE. -/
def execCompile (ops : Carried Unit) (s : State) : Host.Outcome State Fault Refusal :=
  .next (s.request 0x34 ops compile)

/-! ### The compilation's completion (R58 to R64; log 17) -/

/-- A failure: its outcome and offending record (R51). -/
abbrev Failure := PlanOutcome × Offending

/-- The check of one body: its corners in order, then its leading joint (R58, R59). -/
def State.checkBody (s : State) (b : BodyId) (x : Body) : Option Failure :=
  match x.corners.find? fun p => (s.point p).life != .bound with
  | some p => some (.notBound, .point p)
  | none =>
    if x.joint = .closed ∧ s.leadingNeighbour x = none then
      if s.bodiesInOrder.any fun y => y.2.position < x.position then some (.positionGap, .body b)
      else some (.jointOrphan, .body b)
    else none

/-- The check of one constraint id: a CUSTOM record with a term in no body fails (R60). -/
def State.checkCustom (s : State) (c : ConstraintId) : Option Failure :=
  match s.constraint c with
  | some x =>
    if x.kind = .custom ∧ x.terms.points.any (fun p => (s.point p).seat.isNone) then
      some (.termOutside, .constraint c)
    else none
  | none => none

/-- The check phase: the bodies in ascending position, then the CUSTOM records (R58 to R60). -/
def State.checkPhase (s : State) : Option Failure :=
  (s.bodiesInOrder.findSome? fun y => s.checkBody y.1 y.2).orElse fun _ => (ids 128).findSome? s.checkCustom

/-- The derived records of a body, in the order of their creation (R61). -/
def State.derivedOf (s : State) (jointLimit warn : Nat) (b : BodyId) (x : Body) : List Constraint :=
  let make (k : Kind) (t : Terms) (limit : Nat) : Constraint := ⟨k, t, limit, warn, .idle, none, some b⟩
  [make .side (.two x.ll x.lr) x.side, make .side (.two x.tl x.tr) x.side,
   make .end_ (.two x.ll x.tl) x.end_, make .end_ (.two x.lr x.tr) x.end_,
   make .twist (.four x.ll x.lr x.tl x.tr) x.twist]
  ++ match x.joint, s.leadingNeighbour x with
    | .closed, some (_, y) => [make .joint (.two y.tl x.ll) jointLimit, make .joint (.two y.tr x.lr) jointLimit]
    | _, _ => []

/-- Records created one after another at the lowest EMPTY id; TABLE_FULL where none is left (R61). -/
def State.createAll (s : State) (b : BodyId) : List Constraint → Except Failure State
  | [] => .ok s
  | c :: rest =>
    match s.lowestEmpty with
    | none => .error (.tableFull, .body b)
    | some i => (s.setConstraint i (some c)).createAll b rest

/-- The derived records of the bodies in order (R61). -/
def State.buildAll (s : State) (jointLimit warn : Nat) : List (BodyId × Body) → Except Failure State
  | [] => .ok s
  | y :: rest =>
    match s.createAll y.1 (s.derivedOf jointLimit warn y.1 y.2) with
    | .error f => .error f
    | .ok t => t.buildAll jointLimit warn rest

/-- The constraint index of a point: the ids of the non-EMPTY records that have it as a term (R62). -/
def State.indexOf (s : State) (p : PointId) : List ConstraintId :=
  (ids 128).filter fun c => (s.constraint c).any fun x => x.terms.points.contains p

/-- The index phase: INDEX_FULL at the lowest corner point that needs more than eight ids; otherwise every
corner point's index is written (R62). -/
def State.writeIndexes (s : State) : Except Failure State :=
  match (ids 48).find? fun p => (s.point p).seat.isSome && decide (Config.maxIndex < (s.indexOf p).length) with
  | some p => .error (.indexFull, .point p)
  | none => .ok (s.mapPoints fun p x => if x.seat.isSome then { x with index := s.indexOf p } else x)

/-- Both phases: a failure, or the records and indexes built (R58 to R62). -/
def State.build (s : State) (jointLimit warn : Nat) : Except Failure State :=
  match s.checkPhase with
  | some f => .error f
  | none =>
    match s.buildAll jointLimit warn s.bodiesInOrder with
    | .error f => .error f
    | .ok t => t.writeIndexes

/-- A compilation that succeeds (R63): corners PLANNED, plan COMPILED, every record evaluated, PLAN set. -/
def State.compileSucceeds (s : State) : State :=
  let s1 := s.mapPoints fun _ x => if x.life = .bound ∧ x.seat.isSome then { x with life := .planned } else x
  let s2 := { s1 with plan := ⟨.compiled, .success, none, none⟩ }
  s2.evaluateAll.raiseFlag .plan

/-- A compilation that fails (R64): no DERIVED record, plan DRAFTED, the outcome recorded, PLAN set. -/
def State.compileFails (s : State) (f : Failure) : State :=
  let s1 := { s with plan := ⟨.drafted, f.1, some f.2, none⟩ }
  s1.emptyDerived.raiseFlag .plan

/-- The completion of the running compilation, where there is one (R63, R64). -/
def State.completeCompile (s : State) : State :=
  match s.plan.state, s.plan.compilation with
  | .compiling, some k =>
    match s.build k.jointLimit k.warn with
    | .ok t => t.compileSucceeds.settle
    | .error f => (s.compileFails f).settle
  | _, _ => s

/-- The meaning of COMPILATION_COMPLETE. -/
def execCompilationComplete (s : State) : Host.Outcome State Fault Refusal :=
  .next (s.event State.completeCompile)

/-! ### RELEASE-PLAN (R73) and READ-PLAN (R72) -/

/-- RELEASE-PLAN (R73). -/
def releasePlan (_ : Unit) (s : State) : Answer × State :=
  if s.plan.state ≠ .inService then refuse s .refusedState
  else
    match s.busyGroup with
    | some g => refuseFor s .refusedState (.group g)
    | none =>
      match s.jog.active with
      | some j => refuseFor s .refusedState (.point j.point)
      | none =>
        match (ids 48).find? fun p => (s.point p).life == .planned && s.raised p with
        | some p => refuseFor s .refusedState (.point p)
        | none => done { s with plan := { s.plan with state := .compiled } }

/-- The meaning of RELEASE_PLAN. -/
def execReleasePlan (ops : Carried Unit) (s : State) : Host.Outcome State Fault Refusal :=
  .next (s.request 0x35 ops releasePlan)

/-- READ-PLAN (R72). -/
def readPlan (_ : Unit) (s : State) : Answer × State := doneWith s (planPayload s)

/-- The meaning of READ_PLAN. -/
def execReadPlan (ops : Carried Unit) (s : State) : Host.Outcome State Fault Refusal :=
  .next (s.request 0x36 ops readPlan)

end Sys2Proof.Machine
end

