-- ==== Sys2Proof/Machine/Port.lean ====
section
/-! DEFINITION. The console port's own commands (chapter 9), the reset pin and the start-up wait (R200), and
PART-RESET (R180, R181). -/

namespace Sys2Proof.Machine

/-! ### NOP (R174) -/

/-- A NOP clocks out the last response and keeps it (R174); one with operand bytes is refused at the range
stage (R173; log 8). -/
def State.nop (s : State) (ops : Carried Unit) : State :=
  match s.phase with
  | .held => s
  | .waiting _ => { s with port := { s.port with out := .filler } }
  | .running =>
    match ops with
    | .takes _ => { s with port := { s.port with out := .frame s.port.last } }
    | .illFormed => s.request 0x00 ops fun _ t => done t

/-- The meaning of NOP. -/
def execNop (ops : Carried Unit) (s : State) : Host.Outcome State Fault Refusal := .next (s.nop ops)

/-! ### SELECT (R178) -/

/-- The focus after a SELECT that gives one or leaves it (R178). -/
def focus? (o : SelectOps) (held : PointId) : Option PointId :=
  match o.focus with
  | none => some held
  | some n => fin? 48 n

/-- SELECT (R178). -/
def select (o : SelectOps) (s : State) : Answer × State :=
  match focus? o s.port.focus with
  | none => refuse s .refusedRange
  | some f =>
    let scope := o.scope.getD s.port.scope
    doneWith { s with port := { s.port with focus := f, scope := scope } } [byte f.val, byte (Scope.code scope)]

/-- The meaning of SELECT. -/
def execSelect (ops : Carried SelectOps) (s : State) : Host.Outcome State Fault Refusal :=
  .next (s.request 0x01 ops select)

/-! ### PART-RESET (R180, R181) -/

/-- An engine after an accepted PART-RESET: IDLE with stop pending set, and a slot in flight kept, its answer to be
discarded (R74, R92). -/
def Engine.partReset (e : Engine) : Engine :=
  { Engine.powerOn with stopPending := true, exchange := e.exchange.map Exchange.discard, slotLeft := e.slotLeft }

/-- Every block at its power-on value but the site limits, their lock, the raw levels at the pins and the model's
queue and choice counter (R181; log 33). The stop latch and the STOP flag are set (R153, R155, R191). -/
def State.partReset (s : State) : State :=
  { State.initial s.pins s.limits s.limitsLock .running s.port.out s.pending s.choices with
    links := s.links.mapAll fun _ e => e.partReset }

/-- PART-RESET (R180). -/
def partReset (_ : Unit) (s : State) : Answer × State :=
  if s.plan.state = .inService then refuse s .refusedState
  else if s.plan.state = .compiling then refuse s .refusedState
  else done s.partReset.settle

/-- The meaning of PART_RESET. -/
def execPartReset (ops : Carried Unit) (s : State) : Host.Outcome State Fault Refusal :=
  .next (s.request 0x02 ops Machine.partReset)

/-! ### Frames that carry no request of the part (R173, R176) -/

/-- A transaction whose frame is answered with a status alone: its response echoes a code and replaces the last
response; no record changes (R173, R176, R177). -/
def State.answerOnly (s : State) (code : Byte) (st : Status) : State :=
  s.request code (.takes ()) fun _ t => refuse t st

/-- The meaning of UNKNOWN (R176). -/
def execUnknown (code : Byte) (s : State) : Host.Outcome State Fault Refusal := .next (s.answerOnly code .unknown)

/-- The meaning of FRAME_ERROR (R173). -/
def execFrameError (first : Byte) (s : State) : Host.Outcome State Fault Refusal :=
  .next (s.answerOnly first .frameError)

/-- A transaction that began before the wait ended: the part sends FFh and takes nothing, even where it is
released after the wait (R200). The pin asserted, the port does not answer (log 6). -/
def State.discardTransaction (s : State) : State :=
  match s.phase with
  | .held => s
  | .waiting _ => { s with port := { s.port with out := .filler } }
  | .running => { s with port := { s.port with out := .filler } }

/-- The meaning of TRANSACTION_DURING_WAIT. -/
def execTransactionDuringWait (s : State) : Host.Outcome State Fault Refusal := .next s.discardTransaction

/-! ### The reset pin and the start-up wait (R200) -/

/-- The reset pin is asserted: every record at its power-on value, the site limits and their lock included (R200;
log 33). -/
def State.powerOn (s : State) : State :=
  State.initial s.pins defaultLimits false .held .nothing s.pending s.choices

/-- The meaning of POWER_ON. -/
def execPowerOn (s : State) : Host.Outcome State Fault Refusal := .next s.powerOn

/-- The pin is released: the 2 ms wait begins (R200). A pin that is not asserted is not released (log 5). -/
def State.releasePin (s : State) : State :=
  match s.phase with
  | .held => { s with phase := .waiting Config.startUpWaitUs }
  | .waiting _ => s
  | .running => s

/-- The meaning of RESET_PIN_RELEASE. -/
def execResetPinRelease (s : State) : Host.Outcome State Fault Refusal := .next s.releasePin

/-- Each input line's debounced level from its raw level (R158, R200). -/
def Line.sample (x : Line) (raw : Level) : Line := if x.function.isInput then { x with debounced := some raw } else x

/-- The wait ends: the debounced levels are taken and the part works (R200). -/
def State.endWait (s : State) : State :=
  match s.phase with
  | .waiting _ => { s with lines := s.lines.mapAll fun l x => x.sample (s.pins.at l), phase := .running }
  | .held => s
  | .running => s

/-- The meaning of START_UP_WAIT_END. -/
def execStartUpWaitEnd (s : State) : Host.Outcome State Fault Refusal := .next s.endWait

end Sys2Proof.Machine
end

