-- ==== Sys2Proof/Machine/Dispatch.lean ====
section
/-! DEFINITION. The meaning of every command: one arm per constructor, one direct call each. -/

namespace Sys2Proof.Machine

def exec (i : Instr) (s : State) : Host.Outcome State Fault Refusal :=
  match i with
  | .nop ops => Sys2Proof.Machine.execNop ops s
  | .select ops => Sys2Proof.Machine.execSelect ops s
  | .partReset ops => Sys2Proof.Machine.execPartReset ops s
  | .enrolPoint ops => Sys2Proof.Machine.execEnrolPoint ops s
  | .bind ops => Sys2Proof.Machine.execBind ops s
  | .retirePoint ops => Sys2Proof.Machine.execRetirePoint ops s
  | .recaptureRest ops => Sys2Proof.Machine.execRecaptureRest ops s
  | .amendPoint ops => Sys2Proof.Machine.execAmendPoint ops s
  | .readPoint ops => Sys2Proof.Machine.execReadPoint ops s
  | .findPoint ops => Sys2Proof.Machine.execFindPoint ops s
  | .defineBody ops => Sys2Proof.Machine.execDefineBody ops s
  | .amendBody ops => Sys2Proof.Machine.execAmendBody ops s
  | .retireBody ops => Sys2Proof.Machine.execRetireBody ops s
  | .readBody ops => Sys2Proof.Machine.execReadBody ops s
  | .addConstraint ops => Sys2Proof.Machine.execAddConstraint ops s
  | .amendConstraint ops => Sys2Proof.Machine.execAmendConstraint ops s
  | .retireConstraint ops => Sys2Proof.Machine.execRetireConstraint ops s
  | .readConstraint ops => Sys2Proof.Machine.execReadConstraint ops s
  | .compile ops => Sys2Proof.Machine.execCompile ops s
  | .releasePlan ops => Sys2Proof.Machine.execReleasePlan ops s
  | .readPlan ops => Sys2Proof.Machine.execReadPlan ops s
  | .formGroup ops => Sys2Proof.Machine.execFormGroup ops s
  | .start ops => Sys2Proof.Machine.execStart ops s
  | .continue_ ops => Sys2Proof.Machine.execContinue ops s
  | .amendTravel ops => Sys2Proof.Machine.execAmendTravel ops s
  | .hold ops => Sys2Proof.Machine.execHold ops s
  | .resume ops => Sys2Proof.Machine.execResume ops s
  | .disband ops => Sys2Proof.Machine.execDisband ops s
  | .readGroup ops => Sys2Proof.Machine.execReadGroup ops s
  | .jog ops => Sys2Proof.Machine.execJog ops s
  | .jogCancel ops => Sys2Proof.Machine.execJogCancel ops s
  | .stop ops => Sys2Proof.Machine.execStop ops s
  | .clearStop ops => Sys2Proof.Machine.execClearStop ops s
  | .readJog ops => Sys2Proof.Machine.execReadJog ops s
  | .setLine ops => Sys2Proof.Machine.execSetLine ops s
  | .setOutput ops => Sys2Proof.Machine.execSetOutput ops s
  | .readLines ops => Sys2Proof.Machine.execReadLines ops s
  | .linkReset ops => Sys2Proof.Machine.execLinkReset ops s
  | .readLink ops => Sys2Proof.Machine.execReadLink ops s
  | .readAttention ops => Sys2Proof.Machine.execReadAttention ops s
  | .clearAttention ops => Sys2Proof.Machine.execClearAttention ops s
  | .setEnables ops => Sys2Proof.Machine.execSetEnables ops s
  | .setLimits ops => Sys2Proof.Machine.execSetLimits ops s
  | .lockLimits ops => Sys2Proof.Machine.execLockLimits ops s
  | .readLimits ops => Sys2Proof.Machine.execReadLimits ops s
  | .readIdentity ops => Sys2Proof.Machine.execReadIdentity ops s
  | .unknown code => Sys2Proof.Machine.execUnknown code s
  | .frameError first => Sys2Proof.Machine.execFrameError first s
  | .transactionDuringWait => Sys2Proof.Machine.execTransactionDuringWait s
  | .powerOn => Sys2Proof.Machine.execPowerOn s
  | .startUpWaitEnd => Sys2Proof.Machine.execStartUpWaitEnd s
  | .poll link => Sys2Proof.Machine.execPoll link s
  | .probe link => Sys2Proof.Machine.execProbe link s
  | .allStop link => Sys2Proof.Machine.execAllStop link s
  | .reply link f => Sys2Proof.Machine.execReply link f s
  | .announce link f => Sys2Proof.Machine.execAnnounce link f s
  | .missedReply link => Sys2Proof.Machine.execMissedReply link s
  | .probeUnanswered link => Sys2Proof.Machine.execProbeUnanswered link s
  | .ignoredFrame link => Sys2Proof.Machine.execIgnoredFrame link s
  | .breakStart link => Sys2Proof.Machine.execBreakStart link s
  | .breakEnd link => Sys2Proof.Machine.execBreakEnd link s
  | .rawLevelChange line level => Sys2Proof.Machine.execRawLevelChange line level s
  | .debounceTimerExpiry line => Sys2Proof.Machine.execDebounceTimerExpiry line s
  | .stageTimerExpiry group => Sys2Proof.Machine.execStageTimerExpiry group s
  | .jogTimerExpiry => Sys2Proof.Machine.execJogTimerExpiry s
  | .compilationComplete => Sys2Proof.Machine.execCompilationComplete s
  | .resetPinRelease => Sys2Proof.Machine.execResetPinRelease s

end Sys2Proof.Machine
end

