-- ==== Sys2Proof/Decode.lean ====
section
/-! DEFINITION. The words of the table (none), and the request frames of the console port: the CRC-8 (R184),
the judging of a frame (R173), the decoding of operands (R182, R183, R186), and the encoder. -/

namespace Sys2Proof

/-- The command that a word of the table spells: no row of spec/opcode_table.json gives bits. -/
def decodeTableWord (_nbits _w : Nat) : Option Instr := none

/-! ### CRC (R184) -/

/-- One bit of a CRC: the register shifted left, the polynomial combined in where a 1 left the top (R184). -/
def crcShift {n : Nat} (poly reg : BitVec n) : BitVec n :=
  if reg.msb then (reg <<< 1) ^^^ poly else reg <<< 1

/-- `k` shifts (R184). -/
def crcShifts {n : Nat} (poly : BitVec n) : Nat → BitVec n → BitVec n
  | 0, reg => reg
  | k + 1, reg => crcShifts poly k (crcShift poly reg)

/-- The CRC-8 of a console frame (R184). -/
def crc8 (bs : List Byte) : Byte := bs.foldl (fun reg b => crcShifts 0x07#8 8 (reg ^^^ b)) 0x00#8

/-- The CRC-16 of a link frame (R184). -/
def crc16 (bs : List Byte) : BitVec 16 :=
  bs.foldl (fun reg b => crcShifts 0x1021#16 8 (reg ^^^ ((b.setWidth 16 : BitVec 16) <<< 8))) 0xFFFF#16

/-! ### Field decodings (R182, R183) -/

/-- Two bytes, most significant first (R182). -/
def two (a b : Byte) : Nat := a.toNat * 256 + b.toNat

/-- A signed height (R182). -/
def signed (a b : Byte) : Int := if two a b < 32768 then (two a b : Int) else (two a b : Int) - 65536

/-- A column address byte (R182). -/
def addressOp (b : Byte) : AddressOp := ⟨b.toNat / 16, b.toNat % 16⟩

/-- A limit that takes DEFAULT (R182). -/
def limitOp (a b : Byte) : OrDefault := if two a b = 0xFFFE then .default_ else .value (two a b)

/-- A warn percent (R182). -/
def warnOp (b : Byte) : OrDefault := if b.toNat = 0xFE then .default_ else .value b.toNat

/-- A corner (R182). -/
def corner? (b : Byte) : Option Corner :=
  match b.toNat with
  | 0 => some .ll | 1 => some .lr | 2 => some .tl | 3 => some .tr | _ => none

/-- A joint (R182). -/
def joint? (b : Byte) : Option Joint :=
  match b.toNat with
  | 0 => some .none | 1 => some .open_ | 2 => some .closed | _ => none

/-- A scope, or unchanged (R178, R182). DEDUCED (log 37): the four codes, from the order of R178's list. DEDUCED (log 35):
R182 gives FFh for unchanged to ids alone and FFh for absent to an enumeration; the model takes FFh for an unchanged
scope. -/
def scope? (b : Byte) : Option (Option Scope) :=
  match b.toNat with
  | 0 => some (some .one) | 1 => some (some .body) | 2 => some (some .group) | 3 => some (some .all)
  | 255 => some none | _ => none

/-- A two-valued operand (R182). -/
def bool? (b : Byte) : Option Bool :=
  match b.toNat with
  | 0 => some false | 1 => some true | _ => none

/-- A polarity (R182). -/
def polarity? (b : Byte) : Option Polarity :=
  match b.toNat with
  | 0 => some .activeHigh | 1 => some .activeLow | _ => none

/-- A line parameter (R186). -/
def parameter? (b : Byte) : Option LineParameter :=
  match b.toNat with
  | 0 => some (.group 0) | 1 => some (.group 1) | 2 => some (.group 2) | 3 => some (.group 3)
  | 4 => some .all | 255 => some .absent | _ => none

/-- A focus, or unchanged (R178, R182). -/
def focusOp (b : Byte) : Option Nat := if b.toNat = 255 then none else some b.toNat

/-- A field of an amendment: given where its bit of the presence mask is 1 (R182, R183). DEDUCED (log 34): which bit
stands for which field is not stated; the model puts the i-th field that R186 lists at bit i, here and in each layout
below that carries a presence mask. -/
def given {α : Type} (mask : Nat) (bit : Nat) (a : α) : Option α := if mask.testBit bit then some a else none

/-- A field of an amendment whose code may be no value of its type: `none` where it is given and is none (R183). -/
def givenCode {α : Type} (mask : Nat) (bit : Nat) (a : Option α) : Option (Option α) :=
  if mask.testBit bit then a.map some else some none

/-- Operands that decode, or the mark that they do not. -/
def carry {α : Type} : Option α → Carried α
  | some a => .takes a
  | none => .illFormed

/-! ### Operand layouts (R186) -/

def decodeNone : List Byte → Option Unit
  | [] => some ()
  | _ => none

def decodeId : List Byte → Option Nat
  | [n] => some n.toNat
  | _ => none

/-- SELECT; FFh is taken as *unchanged* for the scope too (DEDUCED, log 35). -/
def decodeSelect : List Byte → Option SelectOps
  | [f, sc] => (scope? sc).map fun x => ⟨focusOp f, x⟩
  | _ => none

def decodeEnrol : List Byte → Option EnrolOps
  | [p, a] => some ⟨p.toNat, addressOp a⟩
  | _ => none

/-- AMEND-POINT; which bit of the mask stands for which field is DEDUCED (log 34). -/
def decodeAmendPoint : List Byte → Option AmendPointOps
  | [m, a, d1, d0, i] =>
    (givenCode m.toNat 2 (bool? i)).map fun inh =>
      ⟨given m.toNat 0 (addressOp a), given m.toNat 1 (two d1 d0), inh⟩
  | _ => none

def decodeFind : List Byte → Option FindOps
  | [form, a] => if form.toNat = 0 then some (.byAddress (addressOp a)) else none
  | [form, b, c] => if form.toNat = 1 then (corner? c).map (.byCorner b.toNat) else none
  | _ => none

def decodeDefineBody : List Byte → Option DefineBodyOps
  | [b, pos, ll, lr, tl, tr, j, s1, s0, e1, e0, t1, t0] =>
    (joint? j).map fun jt =>
      ⟨b.toNat, pos.toNat, ll.toNat, lr.toNat, tl.toNat, tr.toNat, jt, limitOp s1 s0, limitOp e1 e0, limitOp t1 t0⟩
  | _ => none

/-- AMEND-BODY; which bit of the mask stands for which field is DEDUCED (log 34). -/
def decodeAmendBody : List Byte → Option AmendBodyOps
  | [b, m1, m0, pos, ll, lr, tl, tr, j, s1, s0, e1, e0, t1, t0] =>
    let m := two m1 m0
    (givenCode m 1 (joint? j)).map fun jt =>
      { body := b.toNat
        position := given m 0 pos.toNat
        joint := jt
        ll := given m 2 ll.toNat
        lr := given m 3 lr.toNat
        tl := given m 4 tl.toNat
        tr := given m 5 tr.toNat
        side := given m 6 (limitOp s1 s0)
        end_ := given m 7 (limitOp e1 e0)
        twist := given m 8 (limitOp t1 t0) }
  | _ => none

def decodeAddConstraint : List Byte → Option AddConstraintOps
  | [n, a, b, c, d, l1, l0, w] =>
    match n.toNat with
    | 2 => some ⟨[a.toNat, b.toNat], two l1 l0, warnOp w⟩
    | 4 => some ⟨[a.toNat, b.toNat, c.toNat, d.toNat], two l1 l0, warnOp w⟩
    | _ => none
  | _ => none

/-- AMEND-CONSTRAINT; which bit of the mask stands for which field is DEDUCED (log 34). -/
def decodeAmendConstraint : List Byte → Option AmendConstraintOps
  | [c, m, l1, l0, w] => some ⟨c.toNat, given m.toNat 0 (two l1 l0), given m.toNat 1 (warnOp w)⟩
  | _ => none

def decodeFormGroup : List Byte → Option FormGroupOps
  | g :: n :: bs => if bs.length = n.toNat then some ⟨g.toNat, bs.map (·.toNat)⟩ else none
  | _ => none

def decodeStart : List Byte → Option StartOps
  | [g, t1, t0, s1, s0, gap] => some ⟨g.toNat, signed t1 t0, two s1 s0, gap.toNat⟩
  | _ => none

def decodeAmendTravel : List Byte → Option AmendTravelOps
  | [g, t1, t0, s1, s0] =>
    some ⟨g.toNat, signed t1 t0, if two s1 s0 = 0xFFFF then none else some (two s1 s0)⟩
  | _ => none

def decodeJog : List Byte → Option JogOps
  | [p, d1, d0] => some ⟨p.toNat, signed d1 d0⟩
  | _ => none

def decodeSetLine : List Byte → Option SetLineOps
  | [l, sel, par, pol] =>
    match parameter? par, polarity? pol with
    | some p, some q => some ⟨l.toNat, sel.toNat, p, q⟩
    | _, _ => none
  | _ => none

def decodeSetOutput : List Byte → Option SetOutputOps
  | [l, v] => (bool? v).map fun a => ⟨l.toNat, a⟩
  | _ => none

def decodeMask : List Byte → Option (BitVec 32)
  | [a, b, c, d] => some (BitVec.ofNat 32 (two a b * 65536 + two c d))
  | _ => none

def decodeLimits : List Byte → Option Limits
  | [c1, c0, m1, m0, fw, ab, rb, k1, k0, j1, j0, w, sh, t1, t0] =>
    some ⟨two c1 c0, two m1 m0, fw.toNat, ab.toNat, rb.toNat, two k1 k0, two j1 j0, w.toNat, sh.toNat, two t1 t0⟩
  | _ => none

/-- The command that a well-formed frame's code and operands name (R176 stage 2, R186). -/
def decodeRequest (code : Byte) (ops : List Byte) : Instr :=
  match code.toNat with
  | 0x00 => .nop (carry (decodeNone ops))
  | 0x01 => .select (carry (decodeSelect ops))
  | 0x02 => .partReset (carry (decodeNone ops))
  | 0x10 => .enrolPoint (carry (decodeEnrol ops))
  | 0x11 => .bind (carry (decodeId ops))
  | 0x12 => .retirePoint (carry (decodeId ops))
  | 0x13 => .recaptureRest (carry (decodeId ops))
  | 0x14 => .amendPoint (carry (decodeAmendPoint ops))
  | 0x15 => .readPoint (carry (decodeNone ops))
  | 0x16 => .findPoint (carry (decodeFind ops))
  | 0x20 => .defineBody (carry (decodeDefineBody ops))
  | 0x21 => .amendBody (carry (decodeAmendBody ops))
  | 0x22 => .retireBody (carry (decodeId ops))
  | 0x23 => .readBody (carry (decodeId ops))
  | 0x30 => .addConstraint (carry (decodeAddConstraint ops))
  | 0x31 => .amendConstraint (carry (decodeAmendConstraint ops))
  | 0x32 => .retireConstraint (carry (decodeId ops))
  | 0x33 => .readConstraint (carry (decodeId ops))
  | 0x34 => .compile (carry (decodeNone ops))
  | 0x35 => .releasePlan (carry (decodeNone ops))
  | 0x36 => .readPlan (carry (decodeNone ops))
  | 0x40 => .formGroup (carry (decodeFormGroup ops))
  | 0x41 => .start (carry (decodeStart ops))
  | 0x42 => .continue_ (carry (decodeId ops))
  | 0x43 => .amendTravel (carry (decodeAmendTravel ops))
  | 0x44 => .hold (carry (decodeId ops))
  | 0x45 => .resume (carry (decodeId ops))
  | 0x46 => .disband (carry (decodeId ops))
  | 0x47 => .readGroup (carry (decodeId ops))
  | 0x50 => .jog (carry (decodeJog ops))
  | 0x51 => .jogCancel (carry (decodeNone ops))
  | 0x52 => .stop (carry (decodeNone ops))
  | 0x53 => .clearStop (carry (decodeNone ops))
  | 0x54 => .readJog (carry (decodeNone ops))
  | 0x60 => .setLine (carry (decodeSetLine ops))
  | 0x61 => .setOutput (carry (decodeSetOutput ops))
  | 0x62 => .readLines (carry (decodeNone ops))
  | 0x70 => .linkReset (carry (decodeId ops))
  | 0x71 => .readLink (carry (decodeId ops))
  | 0x80 => .readAttention (carry (decodeNone ops))
  | 0x81 => .clearAttention (carry (decodeMask ops))
  | 0x82 => .setEnables (carry (decodeMask ops))
  | 0x90 => .setLimits (carry (decodeLimits ops))
  | 0x91 => .lockLimits (carry (decodeNone ops))
  | 0x92 => .readLimits (carry (decodeNone ops))
  | 0x93 => .readIdentity (carry (decodeNone ops))
  | _ => .unknown code

/-- The operands of a well-formed frame whose first two bytes are given: `none` where it is not well formed
(R173). -/
def frameOperands? (code len : Byte) (rest : List Byte) : Option (List Byte) :=
  let ops := rest.take len.toNat
  match rest.drop len.toNat with
  | [] => none
  | c :: _ => if len.toNat ≤ 40 ∧ c = crc8 (code :: len :: ops) then some ops else none

/-- The command of a transaction from the bytes received; `none` where no byte was clocked (R172, R173). -/
def decodeTransaction : List Byte → Option Instr
  | [] => none
  | [a] => some (.frameError a)
  | a :: b :: rest =>
    match frameOperands? a b rest with
    | some ops => some (decodeRequest a ops)
    | none => some (.frameError a)

/-! ### The encoder (R182, R186) -/

/-- Two bytes of a number (R182). -/
def enc16 (n : Nat) : List Byte := [byte (n / 256), byte n]

/-- A signed height (R182). -/
def enc16s (v : Int) : List Byte := enc16 (v % 65536).toNat

/-- A limit that takes DEFAULT (R182). -/
def encLimitOp : OrDefault → List Byte
  | .value n => enc16 n
  | .default_ => enc16 0xFFFE

/-- A warn percent (R182). -/
def encWarnOp : OrDefault → Byte
  | .value n => byte n
  | .default_ => byte 0xFE

/-- A column address operand (R182). -/
def encAddressOp (a : AddressOp) : Byte := byte (a.link * 16 + a.node)

/-- A presence mask: bit i is 1 where the i-th field is given (R182; the order of the bits is DEDUCED, log 34). -/
def presence : List Bool → Nat
  | [] => 0
  | b :: l => boolCode b + 2 * presence l

/-- The operand bytes of an AMEND-POINT (R186). -/
def encAmendPoint (o : AmendPointOps) : List Byte :=
  [byte (presence [o.address.isSome, o.derated.isSome, o.inhibit.isSome]),
   encAddressOp (o.address.getD ⟨0, 0⟩)] ++ enc16 (o.derated.getD 0) ++ [byte (boolCode (o.inhibit.getD false))]

/-- The operand bytes of an AMEND-BODY (R186). -/
def encAmendBody (o : AmendBodyOps) : List Byte :=
  [byte o.body]
  ++ enc16 (presence [o.position.isSome, o.joint.isSome, o.ll.isSome, o.lr.isSome, o.tl.isSome, o.tr.isSome,
      o.side.isSome, o.end_.isSome, o.twist.isSome])
  ++ [byte (o.position.getD 0), byte (o.ll.getD 0), byte (o.lr.getD 0), byte (o.tl.getD 0), byte (o.tr.getD 0),
      byte (Joint.code (o.joint.getD .none))]
  ++ encLimitOp (o.side.getD .default_) ++ encLimitOp (o.end_.getD .default_) ++ encLimitOp (o.twist.getD .default_)

/-- The operand bytes of an ADD-CONSTRAINT; unused terms are sent as 0 (R186). -/
def encAddConstraint (o : AddConstraintOps) : List Byte :=
  [byte o.terms.length, byte (o.terms.getD 0 0), byte (o.terms.getD 1 0), byte (o.terms.getD 2 0),
   byte (o.terms.getD 3 0)] ++ enc16 o.limit ++ [encWarnOp o.warn]

/-- The code and operand bytes of a request whose operands decode; `none` for a command that is no request. An
unchanged scope is sent as FFh (DEDUCED, log 35). -/
def encodeRequest : Instr → Option (Byte × List Byte)
  | .nop (.takes _) => some (0x00, [])
  | .select (.takes o) => some (0x01, [byte (o.focus.getD 255), byte ((o.scope.map Scope.code).getD 255)])
  | .partReset (.takes _) => some (0x02, [])
  | .enrolPoint (.takes o) => some (0x10, [byte o.point, encAddressOp o.address])
  | .bind (.takes n) => some (0x11, [byte n])
  | .retirePoint (.takes n) => some (0x12, [byte n])
  | .recaptureRest (.takes n) => some (0x13, [byte n])
  | .amendPoint (.takes o) => some (0x14, encAmendPoint o)
  | .readPoint (.takes _) => some (0x15, [])
  | .findPoint (.takes (.byAddress a)) => some (0x16, [0x00, encAddressOp a])
  | .findPoint (.takes (.byCorner b c)) => some (0x16, [0x01, byte b, byte (Corner.code c)])
  | .defineBody (.takes o) =>
    some (0x20, [byte o.body, byte o.position, byte o.ll, byte o.lr, byte o.tl, byte o.tr, byte (Joint.code o.joint)]
      ++ encLimitOp o.side ++ encLimitOp o.end_ ++ encLimitOp o.twist)
  | .amendBody (.takes o) => some (0x21, encAmendBody o)
  | .retireBody (.takes n) => some (0x22, [byte n])
  | .readBody (.takes n) => some (0x23, [byte n])
  | .addConstraint (.takes o) => some (0x30, encAddConstraint o)
  | .amendConstraint (.takes o) =>
    some (0x31, [byte o.constraint, byte (presence [o.limit.isSome, o.warn.isSome])]
      ++ enc16 (o.limit.getD 0) ++ [encWarnOp (o.warn.getD .default_)])
  | .retireConstraint (.takes n) => some (0x32, [byte n])
  | .readConstraint (.takes n) => some (0x33, [byte n])
  | .compile (.takes _) => some (0x34, [])
  | .releasePlan (.takes _) => some (0x35, [])
  | .readPlan (.takes _) => some (0x36, [])
  | .formGroup (.takes o) => some (0x40, [byte o.group, byte o.bodies.length] ++ o.bodies.map byte)
  | .start (.takes o) => some (0x41, [byte o.group] ++ enc16s o.travel ++ enc16 o.step ++ [byte o.gap])
  | .continue_ (.takes n) => some (0x42, [byte n])
  | .amendTravel (.takes o) => some (0x43, [byte o.group] ++ enc16s o.travel ++ enc16 (o.step.getD 0xFFFF))
  | .hold (.takes n) => some (0x44, [byte n])
  | .resume (.takes n) => some (0x45, [byte n])
  | .disband (.takes n) => some (0x46, [byte n])
  | .readGroup (.takes n) => some (0x47, [byte n])
  | .jog (.takes o) => some (0x50, [byte o.point] ++ enc16s o.distance)
  | .jogCancel (.takes _) => some (0x51, [])
  | .stop (.takes _) => some (0x52, [])
  | .clearStop (.takes _) => some (0x53, [])
  | .readJog (.takes _) => some (0x54, [])
  | .setLine (.takes o) =>
    some (0x60, [byte o.line, byte o.selector, byte (LineParameter.code o.parameter), byte (Polarity.code o.polarity)])
  | .setOutput (.takes o) => some (0x61, [byte o.line, byte (boolCode o.active)])
  | .readLines (.takes _) => some (0x62, [])
  | .linkReset (.takes n) => some (0x70, [byte n])
  | .readLink (.takes n) => some (0x71, [byte n])
  | .readAttention (.takes _) => some (0x80, [])
  | .clearAttention (.takes m) => some (0x81, enc16 (m.toNat / 65536) ++ enc16 (m.toNat % 65536))
  | .setEnables (.takes m) => some (0x82, enc16 (m.toNat / 65536) ++ enc16 (m.toNat % 65536))
  | .setLimits (.takes l) =>
    some (0x90, enc16 l.liftCeiling ++ enc16 l.maxStep ++ [byte l.followWindow, byte l.arrivalBand, byte l.restBand]
      ++ enc16 l.contactLoad ++ enc16 l.jointLimit ++ [byte l.warnPercent, byte l.shareLimit] ++ enc16 l.stageTimeout)
  | .lockLimits (.takes _) => some (0x91, [])
  | .readLimits (.takes _) => some (0x92, [])
  | .readIdentity (.takes _) => some (0x93, [])
  | .unknown code => some (code, [])
  | _ => none

/-- The request frame of a code and its operands (R173, R185). -/
def requestFrame (code : Byte) (ops : List Byte) : List Byte :=
  code :: byte ops.length :: ops ++ [crc8 (code :: byte ops.length :: ops)]

end Sys2Proof
end

