-- ==== Sys2Proof/Machine/Frames.lean ====
section
/-! DEFINITION. Bytes at the part's pins: response frames and what a transaction clocks out (R172, R174, R185),
the frames the part sends on a link (R189, R190), the frames a node sends, and the judging of a slot (R76). -/

namespace Sys2Proof.Machine

/-! ### Response frames (R174, R185) -/

/-- A response frame (R185). -/
def Response.frame (r : Response) : List Byte :=
  let body := byte r.status.code :: r.code :: be16 r.payload.length ++ r.payload
  body ++ [crc8 body]

/-- The first `n` bytes a transaction clocks out: the response and then 00h, or FFh for every byte (R172, R200);
none where nothing has been clocked. -/
def DataOut.bytes (n : Nat) : DataOut → List Byte
  | .nothing => []
  | .frame r => (r.frame ++ List.replicate n 0x00#8).take n
  | .filler => List.replicate n 0xFF#8

/-! ### Frames of a link (R189, R190) -/

/-- A link frame: its bytes and its CRC-16, most significant byte first (R184, R189). -/
def linkFrame (body : List Byte) : List Byte := body ++ be16 (crc16 body).toNat

/-- The control byte of a POLL: bits 0 and 1 the permit, bit 7 stop latched (R189, R190). -/
def pollControl (permit : Permit) (stop : Bool) : Byte := byte (permit.code + 128 * boolCode stop)

/-- The frame of the message an exchange sent; the length of its slot's expected answer beside it, 0 where none is
expected (R78, R88, R189). -/
def Exchange.sent : Exchange → List Byte × Nat
  | .poll _ n permit target stop _ => (linkFrame ([byte n.val, pollControl permit stop] ++ encHeight target), 8)
  | .probe _ n _ => (linkFrame [byte n.val], 10)
  | .allStop => (linkFrame [0x00], 0)

/-- A REPLY frame (R189). -/
def replyFrame (f : ReplyFields) : List Byte := linkFrame ([byte f.node] ++ be16 f.height ++ be16 f.load ++ [f.flags])

/-- An ANNOUNCE frame (R189). -/
def announceFrame (f : AnnounceFields) : List Byte :=
  linkFrame ([byte f.node] ++ be16 f.capacity ++ be16 f.stroke ++ [byte f.nodeClass] ++ be16 f.height)

/-- The fields of a REPLY frame of the right length and CRC (R76, R189). -/
def decodeReply : List Byte → Option ReplyFields
  | [n, h1, h0, l1, l0, fl, c1, c0] =>
    if (crc16 [n, h1, h0, l1, l0, fl]).toNat = two c1 c0 then some ⟨n.toNat, two h1 h0, two l1 l0, fl⟩ else none
  | _ => none

/-- The fields of an ANNOUNCE frame of the right length and CRC; bits 4 to 7 of the class are ignored (R76, R189). -/
def decodeAnnounce : List Byte → Option AnnounceFields
  | [n, a1, a0, k1, k0, cl, h1, h0, c1, c0] =>
    if (crc16 [n, a1, a0, k1, k0, cl, h1, h0]).toNat = two c1 c0 then
      some ⟨n.toNat, two a1 a0, two k1 k0, cl.toNat % 16, two h1 h0⟩
    else none
  | _ => none

/-! ### The judging of a slot (R76, R189; log 36) -/

/-- A byte heard on the line in a slot: when its start bit began, in microseconds from the start of the slot, its
value, and whether the line was at the idle level at its stop bit (R189). -/
structure HeardByte where
  start : Nat
  value : Byte
  stopIdle : Bool
  deriving DecidableEq, Repr

/-- When the stop bit of a byte ends (R189). -/
def HeardByte.stop (b : HeardByte) : Nat := b.start + Config.linkByteUs

/-- A frame as the part recognises it: when it began, its bytes, when its last stop bit ended, and whether a byte
spoiled it (R189). -/
structure HeardFrame where
  start : Nat
  bytes : List Byte
  stop : Nat
  spoiled : Bool
  deriving DecidableEq, Repr

/-- The frame of one byte. -/
def HeardByte.alone (b : HeardByte) : HeardFrame := ⟨b.start, [b.value], b.stop, !b.stopIdle⟩

/-- The frame with a byte before its first. -/
def HeardByte.before (b : HeardByte) (f : HeardFrame) : HeardFrame :=
  { f with start := b.start, bytes := b.value :: f.bytes, spoiled := !b.stopIdle || f.spoiled }

/-- The frames that the bytes heard on the line make: a frame ends where the line has stayed idle for 30
microseconds after a stop bit (R189). -/
def cutFrames : List HeardByte → List HeardFrame
  | [] => []
  | b :: rest =>
    match cutFrames rest with
    | [] => [b.alone]
    | f :: fs => if f.start < b.stop + Config.frameIdleUs then b.before f :: fs else b.alone :: f :: fs

/-- The frames of a slot: a frame still open at the slot's end ends there, with the bytes received by then (R189;
log 36). -/
def slotFrames (heard : List HeardByte) : List HeardFrame :=
  cutFrames (heard.filter fun b => b.stop ≤ Config.slotUs)

/-- The frame begins within the reply window of a slot whose own frame has `sent` bytes (R76). DESIGN CHOICE (log 38): a
frame that begins at the very moment the window opens or at the very moment it closes begins within it. -/
def HeardFrame.inWindow (sent : Nat) (f : HeardFrame) : Bool :=
  let opens := sent * Config.linkByteUs
  opens ≤ f.start && f.start ≤ opens + Config.replyWindowUs

/-- The frame ends before the slot ends and no byte of it is spoiled (R76, R189). -/
def HeardFrame.sound (f : HeardFrame) : Bool := !f.spoiled && f.stop < Config.slotUs

/-- The command that the end of a slot makes, from the bytes heard in it in the order they came: the first frame that
begins in the window is the answer; the rest are ignored (R76). A slot that expects no answer makes none. -/
def judgeSlot (l : LinkId) (e : Exchange) (heard : List HeardByte) : Option Instr :=
  let answer := (slotFrames heard).find? (HeardFrame.inWindow e.sent.1.length)
  match e with
  | .poll .. =>
    match answer.bind fun f => if f.sound then decodeReply f.bytes else none with
    | some r => some (.reply l r)
    | none => some (.missedReply l)
  | .probe .. =>
    match answer.bind fun f => if f.sound then decodeAnnounce f.bytes else none with
    | some a => some (.announce l a)
    | none => some (.probeUnanswered l)
  | .allStop => none

end Sys2Proof.Machine
end

