-- ==== Sys2Proof/Machine/Tick.lean ====
section
/-! DEFINITION. What the part does where no command waits (log 3): a slot or break that is due starts at once; otherwise
one microsecond passes, the remaining times count down, and a time that runs out puts its expiry command into the queue
(log 4). -/

namespace Sys2Proof.Machine

/-- The time left after one microsecond. -/
def Line.tick (x : Line) : Line := { x with timer := x.timer.map (· - 1) }

/-- The stage timer runs while STAGING and stands otherwise (R128). -/
def Group.tick (x : Group) : Group := if x.state = .staging then { x with timer := x.timer.map (· - 1) } else x

/-- The jog timer runs while the slot is ACTIVE (R148). -/
def JogSlot.tick (x : JogSlot) : JogSlot := { x with active := x.active.map fun j => { j with timer := j.timer - 1 } }

/-- A time is out. -/
def runOut (t : Option Nat) : Bool := t == some 0

/-- The slot in progress and the break that is held count down (R76, R90). -/
def Engine.countDown (x : Engine) : Engine :=
  { x with slotLeft := x.slotLeft.map (· - 1), breakLeft := x.breakLeft.map (· - 1) }

/-- The slot of an ALL-STOP, which expects no answer, is over when its time is out (R76, R88). -/
def Engine.tick (x : Engine) : Engine :=
  if x.exchange = some .allStop ∧ runOut x.countDown.slotLeft then x.countDown.slotOver else x.countDown

/-- The command that the end of a slot's time makes where no answer was taken (R76, R81, R85). -/
def Engine.unanswered (x : Engine) (l : LinkId) : Option Instr :=
  if runOut x.slotLeft then
    match x.exchange with
    | some (.poll ..) => some (.missedReply l)
    | some (.probe ..) => some (.probeUnanswered l)
    | some .allStop => none
    | none => none
  else none

/-- The slot or break that a link with no slot in progress starts next (R76, R77, R88, R90). -/
def Engine.due (x : Engine) (l : LinkId) : Option Instr :=
  if x.exchange.isSome then none
  else
    match x.link with
    | .resetting => if x.breakLeft.isNone then some (.breakStart l) else none
    | .idle => if x.stopPending then some (.allStop l) else none
    | .running =>
      match x.choose with
      | .allStop => some (.allStop l)
      | .poll _ => some (.poll l)
      | .probe _ => some (.probe l)
      | .nothing => none

/-- The running compilation's time counts down (R57). -/
def Plan.tick (x : Plan) : Plan := { x with compilation := x.compilation.map fun k => { k with left := k.left - 1 } }

/-- The expiry commands of the times that are out, in the order of the blocks (R57, R76, R90, R128, R148, R161;
log 4). -/
def State.expiries (s : State) : List Instr :=
  ((ids 12).filter fun l => (s.line l).function.isInput && runOut (s.line l).timer).map .debounceTimerExpiry
  ++ ((ids 4).filter fun g => (s.group g).state == .staging && runOut (s.group g).timer).map .stageTimerExpiry
  ++ (if runOut (s.jog.active.map (·.timer)) then [.jogTimerExpiry] else [])
  ++ (if runOut (s.plan.compilation.map (·.left)) then [.compilationComplete] else [])
  ++ ((ids 4).filter fun l => runOut (s.engine l).breakLeft).map .breakEnd
  ++ (ids 4).filterMap fun l => (s.engine l).unanswered l

/-- The slots and breaks that start now: the slots of a link follow one another back to back (R76). -/
def State.due (s : State) : List Instr := (ids 4).filterMap fun l => (s.engine l).due l

/-- The records after one microsecond of work. -/
def State.countDown (s : State) : State :=
  { s with
    lines := s.lines.mapAll fun _ x => x.tick
    groups := s.groups.mapAll fun _ x => x.tick
    jog := s.jog.tick
    links := s.links.mapAll fun _ x => x.tick
    plan := s.plan.tick }

/-- What happens where no command waits: nothing while the pin is asserted; the wait counts down to its end (R200); in
work the slots and breaks that are due start, and where none is, the times count down by one microsecond. -/
def State.tick (s : State) : State :=
  match s.phase with
  | .held => s
  | .waiting n =>
    { s with phase := .waiting (n - 1), pending := s.pending ++ if n - 1 = 0 then [.startUpWaitEnd] else [] }
  | .running =>
    if s.due.isEmpty then { s.countDown with pending := s.pending ++ s.countDown.expiries }
    else { s with pending := s.pending ++ s.due }

end Sys2Proof.Machine
end

