-- ==== Sys2Proof/Machine/Step.lean ====
section
/-! DEFINITION. One step: the command at the front of the queue, or one microsecond where none waits; and how
commands come into the queue. -/

namespace Sys2Proof.Machine

/-- One step: the front command of the queue acts on the state with the queue's rest; on an empty queue the part does
what is due, or one microsecond passes (log 3). -/
def step (s : State) : Host.Outcome State Fault Refusal :=
  match s.pending with
  | [] => .next s.tick
  | c :: rest => exec c { s with pending := rest }

/-- The state with the command that a word of the table spells put at the front of its queue; no row of the table
gives bits, so the state is unchanged. -/
def State.withFetchWord (s : State) (nbits w : Nat) : State :=
  match decodeTableWord nbits w with
  | some c => { s with pending := c :: s.pending }
  | none => s

/-- A console transaction in which the host clocked in these bytes: its command joins the queue (R172). -/
def State.transaction (s : State) (received : List Byte) : State :=
  match decodeTransaction received with
  | some c => { s with pending := s.pending ++ [c] }
  | none => s

/-- The end of a slot of a link in which these bytes were heard: the command it makes joins the queue (R76). -/
def State.slotEnd (s : State) (l : LinkId) (heard : List HeardByte) : State :=
  match (s.engine l).exchange.bind fun e => judgeSlot l e heard with
  | some c => { s with pending := s.pending ++ [c] }
  | none => s

end Sys2Proof.Machine
end

