-- ==== Sys2Proof/Safety.lean ====
section
/-! DEFINITION. What the statements speak of: the invariants of the part, which requests there are, the form of a
request's answer, and the shapes that frames are said with. -/

namespace Sys2Proof.Machine

/-! ### The derived fields (R143, R167, R192) -/

/-- Every point's permit is the one R143's table gives. -/
abbrev State.PermitsFollow (s : State) : Prop := ∀ p, (s.point p).permit = s.permitOf p (s.point p)

/-- Every line is driven as R167 gives. -/
abbrev State.DrivesFollow (s : State) : Prop := ∀ l, (s.line l).drive = s.driveOf (s.line l)

/-- ATTN is asserted exactly when some flag is both set and enabled (R192). -/
abbrev State.AttnFollows (s : State) : Prop := s.attention.attn = s.attention.calls

/-- Every derived field holds the value its rule gives. -/
abbrev State.Settled (s : State) : Prop := s.PermitsFollow ∧ s.DrivesFollow ∧ s.AttnFollows

/-! ### Invariants of the records -/

/-- The STOP flag is set while the stop latch is set (R154). -/
abbrev State.LatchFlagged (s : State) : Prop := s.stop = true → s.attention.isSet .stop = true

/-- No two non-VACANT points hold the same column address, and a VACANT point holds none (R24). -/
abbrev State.AddressesUnique (s : State) : Prop :=
  (∀ p, (s.point p).life = .vacant → (s.point p).address = none)
    ∧ ∀ p q, p ≠ q → (s.point p).life ≠ .vacant → (s.point q).life ≠ .vacant →
        (s.point p).address.isSome → (s.point p).address ≠ (s.point q).address

/-- Every non-VACANT point has a column address of its own (R24); the roster of a link holds the BOUND and PLANNED
points of the link, and no other, in ascending node address (R74); its queue holds DRAFT points of the link with bind
outcome PENDING, each once (R84); and an answer that is to be credited belongs to a BOUND or PLANNED point polled at its
address, or to the DRAFT point at the head of the queue (R83, R85). -/
abbrev State.RostersMatch (s : State) : Prop :=
  s.AddressesUnique
    ∧ (∀ p, (s.point p).life ≠ .vacant → (s.point p).address.isSome)
    ∧ ∀ l,
      (s.engine l).roster.Pairwise (fun a b => a.node < b.node)
      ∧ (∀ r ∈ (s.engine l).roster, (s.point r.point).isBound = true ∧ (s.point r.point).address = some ⟨l, r.node⟩)
      ∧ (∀ p, (s.point p).isBound = true → (s.point p).onLink l = true → ∃ r ∈ (s.engine l).roster, r.point = p)
      ∧ (s.engine l).queue.Nodup
      ∧ (∀ p ∈ (s.engine l).queue, (s.point p).life = .draft ∧ (s.point p).bindOutcome = .pending
          ∧ (s.point p).onLink l = true)
      ∧ match (s.engine l).exchange with
        | some (.poll p n _ _ _ false) => (s.point p).isBound = true ∧ (s.point p).address = some ⟨l, n⟩
        | some (.probe p n false) => (s.engine l).queue.head? = some p ∧ (s.point p).address = some ⟨l, n⟩
        | _ => True

/-- A jog is ACTIVE only while the plan is IN_SERVICE (R142), and while the plan is neither COMPILED nor IN_SERVICE no
point is PLANNED (R30, R53) and every group is FREE (R56, R65, R112, R113). -/
abbrev State.InServiceToMove (s : State) : Prop :=
  (s.jog.active.isSome → s.plan.state = .inService)
    ∧ (∀ p, (s.point p).life = .planned → s.judging = true)
    ∧ ∀ g, (s.group g).state ≠ .free → s.judging = true

/-- Held-from is present exactly while HOLDING, and the hold causes are empty outside HOLDING (R110). -/
abbrev Group.Held (x : Group) : Prop := (x.heldFrom.isSome ↔ x.state = .holding) ∧ (x.state ≠ .holding → x.causes = 0)

/-- Every group record is so. -/
abbrev State.GroupsHeld (s : State) : Prop := ∀ g, (s.group g).Held

/-- Stages done never exceeds stage count, and is below it while a stage is still to come (R120, R124, R127). -/
abbrev Group.StagesWithin (x : Group) : Prop :=
  ∀ r, x.run = some r → r.done ≤ r.count ∧
    ((x.state = .staging ∨ x.state = .gap ∨ x.state = .holding) → r.done < r.count)

/-- Every group record is so. -/
abbrev State.StagesCounted (s : State) : Prop := ∀ g, (s.group g).StagesWithin

/-- The body record and its points name one another (R3): each corner point of a body names the body and the
corner, a point names no body that does not name it back, and a VACANT point names none. No two DEFINED bodies stand at
one position (R2). -/
abbrev State.SeatsMatch (s : State) : Prop :=
  (∀ b x c, s.body b = some x → (s.point (x.corner c)).seat = some ⟨b, c⟩)
    ∧ (∀ p w, (s.point p).seat = some w → ∃ x, s.body w.body = some x ∧ x.corner w.corner = p)
    ∧ (∀ p, (s.point p).life = .vacant → (s.point p).seat = none)
    ∧ ∀ b c x y, s.body b = some x → s.body c = some y → x.position = y.position → b = c

/-! ### What a judgement may change -/

/-- `t` differs from `s` at most in what the monitor, the group engine and the permit unit write: conditions and
motion fields of points, states and last values of constraints, skew entries, group records but their members, the
jog slot, attention, and the model's choice counter (R20). -/
structure State.Judged (s t : State) : Prop where
  bodies : t.bodies = s.bodies
  plan : t.plan = s.plan
  links : t.links = s.links
  stop : t.stop = s.stop
  lines : t.lines = s.lines
  pins : t.pins = s.pins
  limits : t.limits = s.limits
  limitsLock : t.limitsLock = s.limitsLock
  port : t.port = s.port
  phase : t.phase = s.phase
  pending : t.pending = s.pending
  points : ∀ p, t.point p = { s.point p with
    conditions := (t.point p).conditions, target := (t.point p).target
    arrived := (t.point p).arrived, followHeld := (t.point p).followHeld }
  constraints : ∀ c, (t.constraint c).map Constraint.fall = (s.constraint c).map Constraint.fall
  members : ∀ g, (t.group g).members = (s.group g).members

/-! ### Requests and their answers -/

/-- The request code of a command that the host sends as a request and that replaces the last response; absent for
the others and for a NOP that carries no operand (R174, R186). -/
def requestCode : Instr → Option Byte
  | .nop .illFormed => some 0x00 | .select _ => some 0x01 | .partReset _ => some 0x02
  | .enrolPoint _ => some 0x10 | .bind _ => some 0x11 | .retirePoint _ => some 0x12
  | .recaptureRest _ => some 0x13 | .amendPoint _ => some 0x14 | .readPoint _ => some 0x15 | .findPoint _ => some 0x16
  | .defineBody _ => some 0x20 | .amendBody _ => some 0x21 | .retireBody _ => some 0x22 | .readBody _ => some 0x23
  | .addConstraint _ => some 0x30 | .amendConstraint _ => some 0x31 | .retireConstraint _ => some 0x32
  | .readConstraint _ => some 0x33 | .compile _ => some 0x34 | .releasePlan _ => some 0x35 | .readPlan _ => some 0x36
  | .formGroup _ => some 0x40 | .start _ => some 0x41 | .continue_ _ => some 0x42 | .amendTravel _ => some 0x43
  | .hold _ => some 0x44 | .resume _ => some 0x45 | .disband _ => some 0x46 | .readGroup _ => some 0x47
  | .jog _ => some 0x50 | .jogCancel _ => some 0x51 | .stop _ => some 0x52 | .clearStop _ => some 0x53
  | .readJog _ => some 0x54 | .setLine _ => some 0x60 | .setOutput _ => some 0x61 | .readLines _ => some 0x62
  | .linkReset _ => some 0x70 | .readLink _ => some 0x71 | .readAttention _ => some 0x80
  | .clearAttention _ => some 0x81 | .setEnables _ => some 0x82 | .setLimits _ => some 0x90 | .lockLimits _ => some 0x91
  | .readLimits _ => some 0x92 | .readIdentity _ => some 0x93
  | .nop (.takes _) => none
  | .unknown code => some code
  | .frameError first => some first
  | .transactionDuringWait => none | .powerOn => none | .startUpWaitEnd => none
  | .poll _ => none | .probe _ => none | .allStop _ => none | .reply _ _ => none | .announce _ _ => none
  | .missedReply _ => none | .probeUnanswered _ => none | .ignoredFrame _ => none | .breakStart _ => none
  | .breakEnd _ => none | .rawLevelChange _ _ => none | .debounceTimerExpiry _ => none | .stageTimerExpiry _ => none
  | .jogTimerExpiry => none | .compilationComplete => none | .resetPinRelease => none

/-- Every request with operand bytes that do not decode (R173, R183). -/
def illFormedRequests : List Instr :=
  [.nop .illFormed, .select .illFormed, .partReset .illFormed, .enrolPoint .illFormed, .bind .illFormed,
   .retirePoint .illFormed, .recaptureRest .illFormed, .amendPoint .illFormed, .readPoint .illFormed,
   .findPoint .illFormed, .defineBody .illFormed, .amendBody .illFormed, .retireBody .illFormed, .readBody .illFormed,
   .addConstraint .illFormed, .amendConstraint .illFormed, .retireConstraint .illFormed, .readConstraint .illFormed,
   .compile .illFormed, .releasePlan .illFormed, .readPlan .illFormed, .formGroup .illFormed, .start .illFormed,
   .continue_ .illFormed, .amendTravel .illFormed, .hold .illFormed, .resume .illFormed, .disband .illFormed,
   .readGroup .illFormed, .jog .illFormed, .jogCancel .illFormed, .stop .illFormed, .clearStop .illFormed,
   .readJog .illFormed, .setLine .illFormed, .setOutput .illFormed, .readLines .illFormed, .linkReset .illFormed,
   .readLink .illFormed, .readAttention .illFormed, .clearAttention .illFormed, .setEnables .illFormed,
   .setLimits .illFormed, .lockLimits .illFormed, .readLimits .illFormed, .readIdentity .illFormed]

/-- The requests that take one operand length: code, length, and the request where its operands do not decode (R186). -/
def fixedRequests : List (Byte × Nat × Instr) :=
  [(0x00, 0, .nop .illFormed), (0x01, 2, .select .illFormed), (0x02, 0, .partReset .illFormed)]
  ++ [(0x10, 2, .enrolPoint .illFormed), (0x11, 1, .bind .illFormed), (0x12, 1, .retirePoint .illFormed),
    (0x13, 1, .recaptureRest .illFormed), (0x14, 5, .amendPoint .illFormed), (0x15, 0, .readPoint .illFormed)]
  ++ [(0x20, 13, .defineBody .illFormed), (0x21, 15, .amendBody .illFormed), (0x22, 1, .retireBody .illFormed),
    (0x23, 1, .readBody .illFormed)]
  ++ [(0x30, 8, .addConstraint .illFormed), (0x31, 5, .amendConstraint .illFormed),
    (0x32, 1, .retireConstraint .illFormed), (0x33, 1, .readConstraint .illFormed), (0x34, 0, .compile .illFormed),
    (0x35, 0, .releasePlan .illFormed), (0x36, 0, .readPlan .illFormed)]
  ++ [(0x41, 6, .start .illFormed), (0x42, 1, .continue_ .illFormed), (0x43, 5, .amendTravel .illFormed),
    (0x44, 1, .hold .illFormed), (0x45, 1, .resume .illFormed), (0x46, 1, .disband .illFormed),
    (0x47, 1, .readGroup .illFormed)]
  ++ [(0x50, 3, .jog .illFormed), (0x51, 0, .jogCancel .illFormed), (0x52, 0, .stop .illFormed),
    (0x53, 0, .clearStop .illFormed), (0x54, 0, .readJog .illFormed)]
  ++ [(0x60, 4, .setLine .illFormed), (0x61, 2, .setOutput .illFormed), (0x62, 0, .readLines .illFormed),
    (0x70, 1, .linkReset .illFormed), (0x71, 1, .readLink .illFormed)]
  ++ [(0x80, 0, .readAttention .illFormed), (0x81, 4, .clearAttention .illFormed), (0x82, 4, .setEnables .illFormed),
    (0x90, 15, .setLimits .illFormed), (0x91, 0, .lockLimits .illFormed), (0x92, 0, .readLimits .illFormed),
    (0x93, 0, .readIdentity .illFormed)]

/-- The codes of R186's catalogue: those, FIND-POINT's and FORM-GROUP's. -/
def catalogue : List Byte := 0x16 :: 0x40 :: fixedRequests.map (·.1)

/-- A request was acted on (R175). -/
def Status.actedOn : Status → Bool
  | .done => true | .accepted => true
  | .busy => false | .refusedState => false | .refusedRange => false | .refusedLocked => false | .refusedFull => false
  | .conflict => false | .notFound => false | .unknown => false | .frameError => false

/-- The state `t` of the records with the port as a request leaves it: the last response of `s` clocked out, the
request's own response held (R174). -/
def State.answered (s t : State) (code : Byte) (st : Status) (payload : List Byte) : State :=
  { t with port := { t.port with last := ⟨st, code, payload⟩, out := .frame s.port.last } }

/-- The lowest id that passes a test. -/
abbrev lowest {n : Nat} (test : Fin n → Bool) : Option (Fin n) := (ids n).find? test

/-- A check that refuses, with a status and a payload, where a condition holds. -/
def refusesIf (cond : Prop) [Decidable cond] (st : Status) (payload : List Byte := []) : Option (Status × List Byte) :=
  if cond then some (st, payload) else none

/-- A check that refuses naming a record that stands in the way, where there is one: its kind, then its id (R187). -/
def refusesFor {n : Nat} (found : Option (Fin n)) (st : Status) (kind : Byte) : Option (Status × List Byte) :=
  found.map fun i => (st, [kind, byte i.val])

/-- A request whose checks are made in an order is answered with the refusal of the first that refuses it, and
nothing else changes (R176, R177). -/
abbrev State.RefusesInOrder (s : State) (c : Instr) (code : Byte) (checks : List (Option (Status × List Byte))) : Prop :=
  ∀ r, checks.findSome? id = some r → exec c s = .next (s.answered s code r.1 r.2)

/-- The lowest group that is not FREE. -/
abbrev State.groupInUse (s : State) : Option GroupId := lowest fun g => (s.group g).state != .free

/-- The lowest asserted PIT_GATE line. -/
abbrev State.openGate (s : State) : Option LineId := lowest fun l => (s.line l).function == .pitGate && (s.line l).asserted

/-- The checks that R8 makes of every request on a body: lock, in flight, the body's life, no group formed. -/
abbrev State.bodyChecks (s : State) (wrongLife : Prop) [Decidable wrongLife] : List (Option (Status × List Byte)) :=
  [refusesIf (s.plan.state = .inService) .refusedLocked, refusesIf (s.plan.state = .compiling) .busy,
   refusesIf wrongLife .refusedState, refusesFor s.groupInUse .refusedState 0x04]

/-- The part works: the pin released and the start-up wait over (R200). -/
abbrev State.Working (s : State) : Prop := s.phase = .running

/-- No line of a function is asserted (R159). -/
abbrev State.NoneAsserted (s : State) (f : LineFunction) : Prop :=
  ∀ l, (s.line l).function = f → (s.line l).asserted = false

/-- Every group is FREE. -/
abbrev State.AllFree (s : State) : Prop := ∀ g, (s.group g).state = .free

/-- The plan is neither IN_SERVICE nor COMPILING. -/
abbrev State.PlanOpen (s : State) : Prop := s.plan.state ≠ .inService ∧ s.plan.state ≠ .compiling

/-- The two states hold the same value in every field but the port. -/
abbrev State.SameRecords (s t : State) : Prop := t = { s with port := t.port }

end Sys2Proof.Machine
end

