-- ==== Sys2Proof/WellFormed.lean ====
section
/-! DEFINITION. Which commands are well formed: a request whose operands decode and lie within the
ranges the spec gives them whatever the state holds (R176 stage 3, R183); a node frame whose fields fit
their bytes (R189); an unknown code that names no request (R186). -/

namespace Sys2Proof

/-- The request codes of the catalogue (R186). -/
def requestCodes : List Nat :=
  [0x00, 0x01, 0x02, 0x10, 0x11, 0x12, 0x13, 0x14, 0x15, 0x16, 0x20, 0x21, 0x22, 0x23,
   0x30, 0x31, 0x32, 0x33, 0x34, 0x35, 0x36, 0x40, 0x41, 0x42, 0x43, 0x44, 0x45, 0x46, 0x47,
   0x50, 0x51, 0x52, 0x53, 0x54, 0x60, 0x61, 0x62, 0x70, 0x71, 0x80, 0x81, 0x82,
   0x90, 0x91, 0x92, 0x93]

/-- The operands decode and pass a check. -/
def Carried.wf {α : Type} (ok : α → Bool) : Carried α → Bool
  | .takes o => ok o
  | .illFormed => false

/-- The command is well formed. The greatest maximum step, 500, stands where a request is checked
against the maximum step of the site limits record (R196). -/
def Instr.wf : Instr → Bool
  | .nop ops => ops.wf fun _ => true
  | .select ops => ops.wf SelectOps.ok
  | .partReset ops => ops.wf fun _ => true
  | .enrolPoint ops => ops.wf EnrolOps.ok
  | .bind ops => ops.wf (· < 48)
  | .retirePoint ops => ops.wf (· < 48)
  | .recaptureRest ops => ops.wf (· < 48)
  | .amendPoint ops => ops.wf AmendPointOps.ok
  | .readPoint ops => ops.wf fun _ => true
  | .findPoint ops => ops.wf FindOps.ok
  | .defineBody ops => ops.wf DefineBodyOps.ok
  | .amendBody ops => ops.wf AmendBodyOps.ok
  | .retireBody ops => ops.wf (· < 12)
  | .readBody ops => ops.wf (· < 12)
  | .addConstraint ops => ops.wf AddConstraintOps.ok
  | .amendConstraint ops => ops.wf AmendConstraintOps.ok
  | .retireConstraint ops => ops.wf (· < 128)
  | .readConstraint ops => ops.wf (· < 128)
  | .compile ops => ops.wf fun _ => true
  | .releasePlan ops => ops.wf fun _ => true
  | .readPlan ops => ops.wf fun _ => true
  | .formGroup ops => ops.wf FormGroupOps.ok
  | .start ops => ops.wf (StartOps.ok 500)
  | .continue_ ops => ops.wf (· < 4)
  | .amendTravel ops => ops.wf (AmendTravelOps.ok 500)
  | .hold ops => ops.wf (· < 4)
  | .resume ops => ops.wf (· < 4)
  | .disband ops => ops.wf (· < 4)
  | .readGroup ops => ops.wf (· < 4)
  | .jog ops => ops.wf (JogOps.ok 500)
  | .jogCancel ops => ops.wf fun _ => true
  | .stop ops => ops.wf fun _ => true
  | .clearStop ops => ops.wf fun _ => true
  | .readJog ops => ops.wf fun _ => true
  | .setLine ops => ops.wf fun o => o.line < 12 && o.selector < 9
  | .setOutput ops => ops.wf (·.line < 12)
  | .readLines ops => ops.wf fun _ => true
  | .linkReset ops => ops.wf (· < 4)
  | .readLink ops => ops.wf (· < 4)
  | .readAttention ops => ops.wf fun _ => true
  | .clearAttention ops => ops.wf fun _ => true
  | .setEnables ops => ops.wf fun _ => true
  | .setLimits ops => ops.wf Limits.ok
  | .lockLimits ops => ops.wf fun _ => true
  | .readLimits ops => ops.wf fun _ => true
  | .readIdentity ops => ops.wf fun _ => true
  | .unknown code => !requestCodes.contains code.toNat
  | .frameError _ => true
  | .transactionDuringWait => true
  | .powerOn => true
  | .startUpWaitEnd => true
  | .poll _ => true
  | .probe _ => true
  | .allStop _ => true
  | .reply _ f => f.node < 256 && f.height < 65536 && f.load < 65536
  | .announce _ f => f.node < 256 && f.capacity < 65536 && f.stroke < 65536 && f.nodeClass < 16 && f.height < 65536
  | .missedReply _ => true
  | .probeUnanswered _ => true
  | .ignoredFrame _ => true
  | .breakStart _ => true
  | .breakEnd _ => true
  | .rawLevelChange _ _ => true
  | .debounceTimerExpiry _ => true
  | .stageTimerExpiry _ => true
  | .jogTimerExpiry => true
  | .compilationComplete => true
  | .resetPinRelease => true

end Sys2Proof
end

