-- ==== Sys2Proof/Certificates/Slice0/Obligations.lean ====
section
/-! DEFINITION. The statements for the provers. -/

open Sys2Proof Sys2Proof.Machine

/-! ### The queue, the clock, reset -/

/-- The model's choice (log 3): commands stand in one queue, first in, first out. A step takes the command at the front
and runs it on the state with the queue's rest; no command and no microsecond stops the part: every step answers a next
state. -/
def Obligations.StepTakesTheFrontCommand : Prop :=
  (∀ (s : State) (c : Instr) (rest : List Instr), s.pending = c :: rest → step s = exec c { s with pending := rest })
    ∧ ∀ s : State, ∃ t, step s = .next t

/-- The model's choice (log 3, log 4, log 20): on an empty queue the slots and breaks that are due start at once, each a
command that joins the queue, the slots of a link back to back (R76, R77, R88, R90). Where none is due one microsecond
passes: the times that run count down, the slot of an ALL-STOP ends with its time (R76), a time that runs out puts its
command into the queue, and nothing else changes. -/
def Obligations.EmptyQueueStepSendsOrTicks : Prop :=
  ∀ s : State, s.pending = [] →
    (s.phase = .held → step s = .next s)
    ∧ (∀ n, s.phase = .waiting n →
        step s = .next { s with
          phase := .waiting (n - 1)
          pending := if n - 1 = 0 then [.startUpWaitEnd] else [] })
    ∧ (∀ c, c ∈ s.due ↔ ∃ l, (s.engine l).exchange = none ∧
        ((c = .breakStart l ∧ (s.engine l).link = .resetting ∧ (s.engine l).breakLeft = none)
          ∨ (c = .allStop l ∧ (s.engine l).link ≠ .resetting ∧ (s.engine l).stopPending = true)
          ∨ (c = .poll l ∧ (s.engine l).link = .running ∧ ∃ r, (s.engine l).choose = .poll r)
          ∨ (c = .probe l ∧ (s.engine l).link = .running ∧ ∃ p, (s.engine l).choose = .probe p)))
    ∧ (s.Working → s.due ≠ [] → step s = .next { s with pending := s.due })
    ∧ (s.Working → s.due = [] → ∃ t, step s = .next t
        ∧ t = { s with
            lines := t.lines, groups := t.groups, jog := t.jog, links := t.links, plan := t.plan
            pending := t.pending }
        ∧ (∀ l, t.line l = { s.line l with timer := (s.line l).timer.map (· - 1) })
        ∧ (∀ g, t.group g =
            if (s.group g).state = .staging then { s.group g with timer := (s.group g).timer.map (· - 1) }
            else s.group g)
        ∧ t.jog = { s.jog with active := s.jog.active.map fun j => { j with timer := j.timer - 1 } }
        ∧ (∀ l,
            let e : Engine :=
              { s.engine l with
                slotLeft := (s.engine l).slotLeft.map (· - 1), breakLeft := (s.engine l).breakLeft.map (· - 1) }
            t.engine l =
              if e.exchange = some .allStop ∧ e.slotLeft = some 0 then
                { e with
                  exchange := none, slotLeft := none
                  cycle := if e.roster = [] ∧ e.queue = [] then none else e.cycle }
              else e)
        ∧ t.plan = { s.plan with compilation := s.plan.compilation.map fun k => { k with left := k.left - 1 } }
        ∧ ∀ c, c ∈ t.pending ↔
            (∃ l, c = .debounceTimerExpiry l ∧ (s.line l).function.isInput = true ∧ (t.line l).timer = some 0)
            ∨ (∃ g, c = .stageTimerExpiry g ∧ (s.group g).state = .staging ∧ (t.group g).timer = some 0)
            ∨ (c = .jogTimerExpiry ∧ ∃ j, t.jog.active = some j ∧ j.timer = 0)
            ∨ (c = .compilationComplete ∧ ∃ k, t.plan.compilation = some k ∧ k.left = 0)
            ∨ (∃ l, c = .breakEnd l ∧ (t.engine l).breakLeft = some 0)
            ∨ (∃ l, c = .missedReply l ∧ (t.engine l).slotLeft = some 0
                ∧ ∃ p n permit target stop d, (t.engine l).exchange = some (.poll p n permit target stop d))
            ∨ ∃ l, c = .probeUnanswered l ∧ (t.engine l).slotLeft = some 0
                ∧ ∃ p n d, (t.engine l).exchange = some (.probe p n d))

/-- What reset leaves (R19, R46, R51, R74, R94, R110, R142, R158, R174, R178, R191, R196, R200). That reset is the
end of the start-up wait, that the pin of line 8 is high and every other low, that the queue is empty and that nothing has
been clocked out are the model's choices (log 1, log 2, log 3, log 9). -/
def Obligations.ResetHoldsThePowerOnValues : Prop :=
  (∀ p, State.reset.point p = Point.vacant)
    ∧ (∀ b, State.reset.body b = none) ∧ (∀ c, State.reset.constraint c = none)
    ∧ State.reset.plan = ⟨.empty, .none, none, none⟩
    ∧ (∀ l, State.reset.engine l = Engine.powerOn)
    ∧ (∀ b, State.reset.skew.at b = false)
    ∧ (∀ g, State.reset.group g = Group.free)
    ∧ State.reset.jog = ⟨none, .none, none⟩ ∧ State.reset.stop = true
    ∧ (∀ l : LineId, (State.reset.line l).function = (if l = 8 then .shedStop else .generalIn)
        ∧ (State.reset.line l).parameter = .absent
        ∧ (State.reset.line l).polarity = (if l = 8 then .activeLow else .activeHigh)
        ∧ (State.reset.line l).debounced = some (State.reset.pins.at l)
        ∧ (State.reset.line l).timer = none ∧ (State.reset.line l).output = none ∧ (State.reset.line l).drive = none)
    ∧ (∀ f, State.reset.attention.isSet f = decide (f = .stop))
    ∧ State.reset.attention.enables = 0 ∧ State.reset.attention.attn = false
    ∧ State.reset.limits = ⟨18000, 100, 30, 5, 20, 50, 40, 80, 60, 30⟩ ∧ State.reset.limitsLock = false
    ∧ State.reset.port.focus = 0 ∧ State.reset.port.scope = .one ∧ State.reset.port.last = ⟨.done, 0x00, []⟩
    ∧ State.reset.Working ∧ State.reset.pending = []
    ∧ (∀ l : LineId, State.reset.pins.at l = if l = 8 then .high else .low) ∧ State.reset.port.out = .nothing

/-- The reset state has every invariant that the statements below say each step keeps. -/
def Obligations.ResetHasTheInvariants : Prop :=
  State.reset.Settled ∧ State.reset.LatchFlagged ∧ State.reset.AddressesUnique ∧ State.reset.RostersMatch
    ∧ State.reset.InServiceToMove ∧ State.reset.GroupsHeld ∧ State.reset.StagesCounted ∧ State.reset.SeatsMatch

/-! ### Invariants that every step keeps -/

/-- Every step keeps each permit equal to R143's table, each output line driven as R167 gives, and ATTN asserted
exactly when some flag is both set and enabled (R192). -/
def Obligations.StepKeepsPermitsDrivesAndAttn : Prop :=
  ∀ s t : State, s.Settled → step s = .next t → t.Settled

/-- Every step keeps the STOP flag set while the stop latch is set (R154). -/
def Obligations.StepKeepsTheStopFlagWithTheLatch : Prop :=
  ∀ s t : State, s.LatchFlagged → step s = .next t → t.LatchFlagged

/-- Every step keeps the column addresses of the non-VACANT points distinct (R24). Every step keeps, too: each non-VACANT
point has an address; the roster of a link holds the BOUND and PLANNED points of the link, and no other, in ascending node
address (R74); its queue holds DRAFT points of the link with bind outcome PENDING, each once (R84); an answer that is to
be credited belongs to the point polled at its address, or to the head of the queue (R83, R85). -/
def Obligations.StepKeepsAddressesAndRosters : Prop :=
  (∀ s t : State, s.AddressesUnique → step s = .next t → t.AddressesUnique)
    ∧ ∀ s t : State, s.RostersMatch → step s = .next t → t.RostersMatch

/-- Every step keeps: a jog is ACTIVE only in service (R142), and while the plan is neither COMPILED nor IN_SERVICE no point
is PLANNED (R30, R53) and every group is FREE (R56, R65, R112, R113). -/
def Obligations.StepKeepsJogsAndPlannedPointsToThePlan : Prop :=
  ∀ s t : State, s.InServiceToMove → step s = .next t → t.InServiceToMove

/-- Every step keeps: held-from is present exactly while HOLDING, hold causes are empty outside HOLDING (R110), and
stages done stays within stage count (R120). -/
def Obligations.StepKeepsGroupRecordsInShape : Prop :=
  (∀ s t : State, s.GroupsHeld → step s = .next t → t.GroupsHeld)
    ∧ ∀ s t : State, s.StagesCounted → step s = .next t → t.StagesCounted

/-- Every step keeps the body records and the points that stand under them naming one another (R3), and no two DEFINED
bodies at one position (R2). -/
def Obligations.StepKeepsBodiesAndCornersMatched : Prop :=
  ∀ s t : State, s.SeatsMatch → step s = .next t → t.SeatsMatch

/-! ### Permits (R143) -/

/-- R143's table, row by row; when a point is raised (R7); how an output line is driven (R167); and what settling the
derived fields changes: permits, driven levels and ATTN alone. -/
def Obligations.PermitTable : Prop :=
  (∀ (s : State) (p : PointId),
    let x := s.point p
    let rest : Permit := if s.raised p = true then .hold else .none
    let live := x.life = .bound ∨ x.life = .planned
    let still := s.stop = true ∨ x.inhibit = true ∨ x.health = .lost
    let jogged := ∃ j, s.jog.active = some j ∧ j.point = p
    let moving := ∃ g r, x.group = some g ∧ (s.group g).run = some r ∧ (s.group g).state = .staging
      ∧ x.arrived = false ∧ x.followHeld = false
    (¬ live → s.permitOf p x = .none)
    ∧ (live → still → s.permitOf p x = rest)
    ∧ (∀ j, live → ¬ still → s.jog.active = some j → j.point = p →
        s.permitOf p x = if 0 < j.distance then .raise else .lower)
    ∧ (∀ g r, live → ¬ still → ¬ jogged → x.group = some g → (s.group g).run = some r →
        (s.group g).state = .staging → x.arrived = false → x.followHeld = false →
        s.permitOf p x = if 0 < r.travel then .raise else .lower)
    ∧ (live → ¬ still → ¬ jogged → ¬ moving → s.permitOf p x = rest)
    ∧ (s.raised p = true ↔ ∃ h r, x.height = some h ∧ x.rest = some r ∧ r + s.limits.restBand < h))
  ∧ (∀ (s : State) (x : Line),
      let lit := Polarity.active x.polarity
      let dark := if lit = .high then Level.low else .high
      (x.function.isInput = true → s.driveOf x = none)
      ∧ (x.function = .generalOut → s.driveOf x = some (if x.output = some true then lit else dark))
      ∧ (x.function = .beacon → s.driveOf x =
          some (if (∃ g, (s.group g).state = .staging) ∨ s.jog.active.isSome then lit else dark))
      ∧ (x.function = .faultLamp → s.driveOf x =
          some (if (∃ g, (s.group g).state = .holding) ∨ s.stop = true then lit else dark))
      ∧ ∀ g, x.function = .groupMoving → x.parameter = .group g → s.driveOf x =
          some (if (s.group g).state = .staging then lit else dark))
  ∧ ∀ s : State,
      (∀ p, s.settle.point p = { s.point p with permit := s.permitOf p (s.point p) })
      ∧ (∀ l, s.settle.line l = { s.line l with drive := s.driveOf (s.line l) })
      ∧ s.settle.attention = { s.attention with attn := s.attention.calls }
      ∧ s.settle = { s with
          points := s.settle.points, lines := s.settle.lines, attention := s.settle.attention }

/-- Both halves of R143's law: a point whose permit is RAISE or LOWER finds the stop latch clear, and is the jog
point or a non-arrived, non-follow-held member of a STAGING group. -/
def Obligations.NoMotionWhileStopped : Prop :=
  ∀ (s : State) (p : PointId), s.PermitsFollow → ((s.point p).permit = .raise ∨ (s.point p).permit = .lower) →
    s.stop = false
    ∧ ((∃ j, s.jog.active = some j ∧ j.point = p)
      ∨ ∃ g, (s.point p).group = some g ∧ (s.group g).state = .staging
        ∧ (s.point p).arrived = false ∧ (s.point p).followHeld = false)

/-! ### Requests in general (R172 to R177, R183, R200) -/

/-- Every request's response echoes its code and the transaction returns the response held before; a request that is
not acted on changes nothing but its response (R174, R177). A NOP with operand bytes counts among them: that it is
refused, echoes its code and replaces the last response is the model's reading (log 8). -/
def Obligations.RefusedRequestsChangeNothing : Prop :=
  ∀ (s t : State) (c : Instr) (code : Byte), s.Working → requestCode c = some code → exec c s = .next t →
    t.port.last.code = code ∧ t.port.out = .frame s.port.last
    ∧ (t.port.last.status.actedOn = false → t = s.answered s code t.port.last.status t.port.last.payload)

/-- Operand bytes that do not decode are refused with REFUSED-RANGE, without payload (R173, R183; for a NOP the
model's reading, log 8); no request is taken while the pin is asserted (log 6), and during the start-up wait a
request only has the part send FFh (R200), a NOP without operands as any other. -/
def Obligations.RequestsNotTaken : Prop :=
  (∀ s : State, s.Working → ∀ c ∈ illFormedRequests, ∃ code, requestCode c = some code
      ∧ exec c s = .next (s.answered s code .refusedRange []))
    ∧ ∀ (s : State) (c : Instr), (c = .nop (.takes ()) ∨ ∃ code, requestCode c = some code) →
        (s.phase = .held → exec c s = .next s)
        ∧ ∀ n, s.phase = .waiting n → exec c s = .next { s with port := { s.port with out := .filler } }

/-! ### The port's own commands -/

/-- SELECT writes each value given and returns both (R178); FIND-POINT moves the focus to the point it finds by
address, or by body and corner, and answers NOT-FOUND where there is none (R45). Each is refused with REFUSED-RANGE for a
value out of range: a focus or a scope, a link, a node, a body or a corner (R45, R178, R183). The codes of the scopes, and
that FFh leaves the scope as it is, are the model's reading (log 37, log 35). -/
def Obligations.SelectorRequests : Prop :=
  (∀ (s : State) (o : SelectOps) (f : PointId), s.Working → f.val = o.focus.getD s.port.focus.val →
      exec (.select (.takes o)) s =
        .next (s.answered { s with port := { s.port with focus := f, scope := o.scope.getD s.port.scope } }
          0x01 .done [byte f.val, byte (Scope.code (o.scope.getD s.port.scope))]))
    ∧ (∀ (s : State) (o : SelectOps) (n : Nat), s.Working → o.focus = some n → 48 ≤ n →
        exec (.select (.takes o)) s = .next (s.answered s 0x01 .refusedRange []))
    ∧ (∀ (s : State) (focus scope : Byte), s.Working → 4 ≤ scope.toNat → scope.toNat ≤ 254 →
        exec (decodeRequest 0x01 [focus, scope]) s = .next (s.answered s 0x01 .refusedRange []))
    ∧ (∀ (s : State) (a : AddressOp), s.Working → ¬ (a.link ≤ 3 ∧ 1 ≤ a.node ∧ a.node ≤ 15) →
        exec (.findPoint (.takes (.byAddress a))) s = .next (s.answered s 0x16 .refusedRange []))
    ∧ (∀ (s : State) (n : Nat) (c : Corner), s.Working → 12 ≤ n →
        exec (.findPoint (.takes (.byCorner n c))) s = .next (s.answered s 0x16 .refusedRange []))
    ∧ (∀ (s : State) (body corner : Byte), s.Working → 4 ≤ corner.toNat →
        exec (decodeRequest 0x16 [0x01, body, corner]) s = .next (s.answered s 0x16 .refusedRange []))
    ∧ (∀ (s : State) (p : PointId) (a : Address), s.Working → s.AddressesUnique → 1 ≤ a.node.val →
        (s.point p).life ≠ .vacant → (s.point p).address = some a →
        exec (.findPoint (.takes (.byAddress ⟨a.link.val, a.node.val⟩))) s =
          .next (s.answered { s with port := { s.port with focus := p } } 0x16 .done [0x01, byte p.val]))
    ∧ (∀ (s : State) (a : Address), s.Working → 1 ≤ a.node.val →
        (∀ p, (s.point p).life ≠ .vacant → (s.point p).address ≠ some a) →
        exec (.findPoint (.takes (.byAddress ⟨a.link.val, a.node.val⟩))) s = .next (s.answered s 0x16 .notFound []))
    ∧ (∀ (s : State) (b : BodyId) (x : Body) (c : Corner), s.Working → s.SeatsMatch → s.body b = some x →
        exec (.findPoint (.takes (.byCorner b.val c))) s =
          .next (s.answered { s with port := { s.port with focus := x.corner c } } 0x16 .done
            [0x01, byte (x.corner c).val]))
    ∧ ∀ (s : State) (b : BodyId) (c : Corner), s.Working → s.SeatsMatch → s.body b = none →
        exec (.findPoint (.takes (.byCorner b.val c))) s = .next (s.answered s 0x16 .notFound [])

/-- A NOP clocks out the last response and leaves it held (R174). A code that names no request is answered UNKNOWN
(R176); a frame that is not well formed is answered FRAME_ERROR
with its first byte echoed (R173); a transaction begun during the wait gives FFh bytes (R200). No record changes. -/
def Obligations.FramesThatCarryNoRequest : Prop :=
  (∀ s : State, s.Working →
      exec (.nop (.takes ())) s = .next { s with port := { s.port with out := .frame s.port.last } })
    ∧ (∀ (s : State) (code : Byte), s.Working → exec (.unknown code) s = .next (s.answered s code .unknown []))
    ∧ (∀ (s : State) (first : Byte), s.Working →
        exec (.frameError first) s = .next (s.answered s first .frameError []))
    ∧ ∀ s : State, s.phase ≠ .held →
        exec .transactionDuringWait s = .next { s with port := { s.port with out := .filler } }

/-- An accepted PART-RESET brings every block but the site limits and their lock to its power-on value, sets stop
pending on every engine and keeps an exchange in flight until its slot ends, its answer to be discarded (R74, R92, R180,
R181); it is refused while the plan is IN_SERVICE or COMPILING (R180). The queue, the raw levels and the choice counter are
kept (log 33). -/
def Obligations.PartResetResult : Prop :=
  (∀ s : State, s.Working → s.PlanOpen → ∃ t, exec (.partReset (.takes ())) s = .next t
      ∧ (∀ p, t.point p = Point.vacant) ∧ (∀ b, t.body b = none) ∧ (∀ c, t.constraint c = none)
      ∧ t.plan = ⟨.empty, .none, none, none⟩
      ∧ (∀ l, t.engine l =
          { Engine.powerOn with
            stopPending := true, exchange := (s.engine l).exchange.map Exchange.discard
            slotLeft := (s.engine l).slotLeft })
      ∧ (∀ p n permit target stop d,
          Exchange.discard (.poll p n permit target stop d) = .poll p n permit target stop true
            ∧ Exchange.discard (.probe p n d) = .probe p n true)
      ∧ (∀ b, t.skew.at b = false) ∧ (∀ g, t.group g = Group.free)
      ∧ t.jog = ⟨none, .none, none⟩ ∧ t.stop = true
      ∧ (∀ l, t.line l = Line.powerOn l (s.pins.at l))
      ∧ (∀ f, t.attention.isSet f = decide (f = .stop)) ∧ t.attention.enables = 0 ∧ t.attention.attn = false
      ∧ t.limits = s.limits ∧ t.limitsLock = s.limitsLock
      ∧ t.port = ⟨0, .one, ⟨.done, 0x02, []⟩, .frame s.port.last⟩
      ∧ t.pins = s.pins ∧ t.phase = s.phase ∧ t.pending = s.pending ∧ t.choices = s.choices)
    ∧ ∀ s : State, s.Working → ¬ s.PlanOpen →
        exec (.partReset (.takes ())) s = .next (s.answered s 0x02 .refusedState [])

/-- The reset pin (R200): its assertion brings every record to its power-on value, the site limits and their lock
included; its release begins the 2 ms wait; at the end of the wait each input line takes its debounced level from its
raw level and the part works. The model's choices: an assertion keeps the raw levels, the queue and the choice counter
(log 33) and leaves nothing clocked out (log 9), and START_UP_WAIT_END ends the wait whatever time is left (log 4). -/
def Obligations.ResetPinAndStartUp : Prop :=
  (∀ s : State, exec .powerOn s =
      .next (State.initial s.pins ⟨18000, 100, 30, 5, 20, 50, 40, 80, 60, 30⟩ false .held .nothing s.pending s.choices))
    ∧ (∀ s : State, s.phase = .held → exec .resetPinRelease s = .next { s with phase := .waiting 2000 })
    ∧ ∀ (s : State) (n : Nat), s.phase = .waiting n → ∃ t, exec .startUpWaitEnd s = .next t
        ∧ t = { s with lines := t.lines, phase := .running }
        ∧ ∀ l, t.line l =
            if (s.line l).function.isInput = true then { s.line l with debounced := some (s.pins.at l) } else s.line l

/-- Each read request is answered DONE with its payload and changes no record (R17, R44, R71, R72, R93, R139, R152,
R171, R195, R199); one that carries an id out of range is refused with REFUSED-RANGE (R17, R71, R93, R139). -/
def Obligations.ReadRequestsAnswer : Prop :=
  ∀ s : State, s.Working →
    exec (.readPoint (.takes ())) s = .next (s.answered s 0x15 .done (pointPayload s s.port.focus))
    ∧ (∀ b : BodyId, exec (.readBody (.takes b.val)) s = .next (s.answered s 0x23 .done (bodyPayload s b)))
    ∧ (∀ c : ConstraintId,
        exec (.readConstraint (.takes c.val)) s = .next (s.answered s 0x33 .done (constraintPayload s c)))
    ∧ exec (.readPlan (.takes ())) s = .next (s.answered s 0x36 .done (planPayload s))
    ∧ (∀ g : GroupId, exec (.readGroup (.takes g.val)) s = .next (s.answered s 0x47 .done (groupPayload s g)))
    ∧ exec (.readJog (.takes ())) s = .next (s.answered s 0x54 .done (jogPayload s))
    ∧ exec (.readLines (.takes ())) s = .next (s.answered s 0x62 .done (linesPayload s))
    ∧ (∀ l : LinkId, exec (.readLink (.takes l.val)) s = .next (s.answered s 0x71 .done (linkPayload s l)))
    ∧ exec (.readAttention (.takes ())) s = .next (s.answered s 0x80 .done (attentionPayload s))
    ∧ exec (.readIdentity (.takes ())) s = .next (s.answered s 0x93 .done [0x08, 0xC8, 2, 48, 12, 128, 4, 4, 12])
    ∧ ∀ n : Nat,
        (12 ≤ n → exec (.readBody (.takes n)) s = .next (s.answered s 0x23 .refusedRange []))
        ∧ (128 ≤ n → exec (.readConstraint (.takes n)) s = .next (s.answered s 0x33 .refusedRange []))
        ∧ (4 ≤ n → exec (.readGroup (.takes n)) s = .next (s.answered s 0x47 .refusedRange []))
        ∧ (4 ≤ n → exec (.readLink (.takes n)) s = .next (s.answered s 0x71 .refusedRange []))

/-- The layouts of the read payloads (R17, R71, R72, R93, R139, R152, R171, R188, R195) and the encodings of their fields
(R182). READ-POINT: two bytes for a VACANT point; for any other 35 bytes and one for each constraint of the index, with
each field at its offset. The model's choices, where those rules leave a byte open: no life byte for a DEFINED body (log
10), the codes of the plan state (log 11), the absent code of a small count (log 12), the width of the stage counts (log
13), which lists carry a count byte (log 14), the codes of a level (log 15), the place of the head attempts and FFFFh for a
break that has not begun (log 16), and the codes of held-from (log 29). The codes of the enumerations (R182) and the bits of
the sets (R187). -/
def Obligations.ReadPayloadLayouts : Prop :=
  (∀ (s : State) (p : PointId),
    let x := s.point p
    let y := pointPayload s p
    (x.life = .vacant → y = [byte p.val, 0x00])
    ∧ (x.life ≠ .vacant →
        y.length = 35 + x.index.length
        ∧ y.take 7 = [byte p.val, byte x.life.code, encAddress x.address, encId (x.seat.map (·.body)),
            encSmall (x.seat.map (·.corner.code)), byte x.health.code, byte x.bindOutcome.code]
        ∧ (y.drop 7).take 5 = encHeight x.ratedCapacity ++ encHeight x.ratedStroke ++ [encSmall x.nodeClass]
        ∧ (y.drop 12).take 8 =
            encHeight x.derated ++ encHeight x.rest ++ encHeight x.height ++ encHeight x.load
        ∧ (y.drop 20).take 4 = [byte x.flags.toNat, byte x.missed, encBool x.inhibit, encId x.group]
        ∧ (y.drop 24).take 4 = encHeight x.base ++ encHeight x.target
        ∧ (y.drop 28).take 3 =
            [byte (boolCode x.arrived + 2 * boolCode x.followHeld), byte x.permit.code, byte x.conditions.toNat]
        ∧ (y.drop 31).take 4 = encSigned x.lift ++ [encBool (s.raised p), byte x.index.length]
        ∧ y.drop 35 = x.index.map fun c => byte c.val))
  ∧ (∀ (n : Nat) (i : PointId) (b : Bool) (v : Int),
      encHeight none = [0xFF, 0xFF] ∧ encHeight (some n) = [byte (n / 256), byte n]
      ∧ encId (none : Option PointId) = 0xFF ∧ encId (some i) = byte i.val
      ∧ encSmall none = 0xFF ∧ encSmall (some n) = byte n ∧ encBool b = (if b = true then 1 else 0)
      ∧ encSigned none = [0x80, 0x00]
      ∧ (v.natAbs ≤ 32767 →
          encSigned (some v) = [byte ((v % 65536).toNat / 256), byte (v % 65536).toNat])
      ∧ (32767 < v → encSigned (some v) = [0x7F, 0xFF]) ∧ (v < -32767 → encSigned (some v) = [0x80, 0x01]))
  ∧ (∀ (s : State) (b : BodyId),
      (s.body b = none → bodyPayload s b = [0x00])
      ∧ ∀ x, s.body b = some x →
        let y := bodyPayload s b
        y.length = 33
        ∧ y.take 6 = [byte x.position.val, byte x.joint.code, byte x.ll.val, byte x.lr.val, byte x.tl.val, byte x.tr.val]
        ∧ (y.drop 6).take 7 = encHeight (some x.side) ++ encHeight (some x.end_) ++ encHeight (some x.twist)
            ++ [encId x.group]
        ∧ (y.drop 13).take 4 = [byte (s.trailingJoint x).code, encId ((s.leadingNeighbour x).map (·.1)),
            encId ((s.trailingNeighbour x).map (·.1)),
            encBool (s.raised x.ll || s.raised x.lr || s.raised x.tl || s.raised x.tr)]
        ∧ ∀ c, ((y.drop 17).drop (4 * Corner.code c)).take 4 =
            byte (s.point (x.corner c)).health.code :: encSigned (s.point (x.corner c)).lift
              ++ [encBool (s.raised (x.corner c))])
  ∧ (∀ (s : State) (c : ConstraintId),
      (s.constraint c = none → constraintPayload s c = [0x00])
      ∧ ∀ x, s.constraint c = some x → constraintPayload s c =
          [if x.kind = .custom then 2 else 1, byte x.kind.code, byte x.terms.points.length]
          ++ x.terms.points.map (fun p => byte p.val)
          ++ encHeight (some x.limit) ++ [byte x.warn] ++ encHeight (some (x.limit * x.warn / 100))
          ++ [byte x.state.code] ++ encSigned x.last ++ [encId x.origin])
  ∧ (∀ s : State, planPayload s =
      [byte s.plan.state.code, byte s.plan.outcome.code,
       match s.plan.offending with
       | none => 0xFF
       | some (.point p) => byte p.val
       | some (.body b) => byte b.val
       | some (.constraint c) => byte c.val,
       byte ((ids 12).countP fun b => (s.body b).isSome),
       byte ((ids 128).countP fun c => (s.constraint c).any fun x => x.kind != .custom),
       byte ((ids 128).countP fun c => (s.constraint c).any fun x => x.kind == .custom),
       byte ((ids 128).countP fun c => (s.constraint c).isNone),
       byte ((ids 48).countP fun p => (s.point p).life == .planned)])
  ∧ (∀ (s : State) (g : GroupId),
      let x := s.group g
      (x.state = .free → groupPayload s g = [0x00])
      ∧ (x.state ≠ .free → groupPayload s g =
          [byte x.state.code, byte x.members.length] ++ x.members.map (fun b => byte b.val)
          ++ encSigned (x.run.map (·.travel)) ++ encHeight (x.run.map (·.step)) ++ [encSmall (x.run.map (·.gap))]
          ++ encHeight (x.run.map (·.count)) ++ encHeight (x.run.map (·.done)) ++ encHeight (x.run.map (·.completed))
          ++ [encSmall (x.heldFrom.map (·.code)), byte (x.causes.toNat / 256), byte x.causes.toNat]
          ++ encHeight (x.timer.map fun us => (us + 999999) / 1000000)
          ++ [byte (s.members g).length]
          ++ (s.members g).flatMap fun p =>
              let y := s.point p
              [byte p.val, byte y.health.code, encBool y.arrived, encBool y.followHeld]
              ++ encHeight y.base ++ encHeight y.target ++ [byte y.permit.code]
              ++ encSigned (x.run.bind fun r => y.base.map fun _ => y.progress r.travel)))
  ∧ (∀ s : State,
      (s.jog.active = none → jogPayload s = [0x00, byte s.jog.outcome.code, encId s.jog.last])
      ∧ ∀ j, s.jog.active = some j → jogPayload s =
          [0x01, byte s.jog.outcome.code, encId s.jog.last, byte j.point.val] ++ encSigned (some j.distance)
          ++ encHeight (some j.start) ++ encHeight (s.point j.point).target ++ encHeight (s.point j.point).height
          ++ encSigned (some ((((s.point j.point).height.getD 0 : Int) - (j.start : Int)) * j.distance.sign))
          ++ encHeight (some ((j.timer + 999999) / 1000000)))
  ∧ (∀ s : State, linesPayload s =
      (ids 12).flatMap (fun l =>
        let x := s.line l
        [byte x.function.code, byte x.parameter.code, byte x.polarity.code]
        ++ (if x.function.isInput = true then
              [encSmall (x.debounced.map (·.code)), encBool x.asserted, byte (s.pins.at l).code, encBool x.timer.isSome]
            else if x.function = .generalOut then [encBool (s.outputActive x), encSmall (x.output.map boolCode)]
            else [encBool (s.outputActive x)]))
      ++ [encBool (lowest fun l => (s.line l).function == .shedStop && (s.line l).asserted).isSome,
          encBool s.openGate.isSome]
      ++ (ids 4).map fun g => encBool (s.holdButtonAsserted g))
  ∧ (∀ (s : State) (l : LinkId),
      let e := s.engine l
      linkPayload s l =
        [byte e.link.code] ++ encHeight (if e.link = .resetting then e.breakLeft else none)
        ++ [encBool e.stopPending, byte e.roster.length]
        ++ e.roster.flatMap (fun r =>
            [byte r.node.val, byte r.point.val, byte (s.point r.point).health.code, byte (s.point r.point).missed,
             byte r.goodRun])
        ++ (match e.queue with
            | [] => [0x00]
            | p :: rest =>
              [byte (rest.length + 1), byte p.val, byte (s.point p).nodeOf, byte e.attempts]
              ++ rest.flatMap fun q => [byte q.val, byte (s.point q).nodeOf])
        ++ [byte (e.roster.length + if e.queue = [] then 0 else 1)])
  ∧ (∀ s : State, attentionPayload s =
      [byte (s.attention.flags.toNat / 16777216), byte (s.attention.flags.toNat / 65536),
       byte (s.attention.flags.toNat / 256), byte s.attention.flags.toNat,
       byte (s.attention.enables.toNat / 16777216), byte (s.attention.enables.toNat / 65536),
       byte (s.attention.enables.toNat / 256), byte s.attention.enables.toNat]
      ++ (ids 4).map fun g =>
          encBool (s.attention.isSet (.stage g) || s.attention.isSet (.gap g) || s.attention.isSet (.arrived g)
            || s.attention.isSet (.held g)))
  -- the codes of the enumerations
  ∧ ([PointLife.vacant, .draft, .bound, .planned].map PointLife.code = [0, 1, 2, 3]
    ∧ [Health.unbound, .live, .lost].map Health.code = [0, 1, 2]
    ∧ [BindOutcome.none, .pending, .bound, .noAnswer].map BindOutcome.code = [0, 1, 2, 3]
    ∧ [Corner.ll, .lr, .tl, .tr].map Corner.code = [0, 1, 2, 3]
    ∧ [Permit.none, .raise, .lower, .hold].map Permit.code = [0, 1, 2, 3]
    ∧ [Joint.none, .open_, .closed].map Joint.code = [0, 1, 2]
    ∧ [Kind.side, .end_, .twist, .joint, .custom].map Kind.code = [0, 1, 2, 3, 4]
    ∧ [ConstraintState.idle, .clear, .warn, .breach, .blind].map ConstraintState.code = [0, 1, 2, 3, 4]
    ∧ [PlanState.empty, .drafted, .compiling, .compiled, .inService].map PlanState.code = [0, 1, 2, 3, 4]
    ∧ [PlanOutcome.none, .success, .notBound, .jointOrphan, .positionGap, .termOutside, .tableFull, .indexFull].map
        PlanOutcome.code = [0, 1, 2, 3, 4, 5, 6, 7]
    ∧ [LinkState.idle, .running, .resetting].map LinkState.code = [0, 1, 2]
    ∧ [GroupState.free, .formed, .staging, .gap, .holding, .arrived].map GroupState.code = [0, 1, 2, 3, 4, 5]
    ∧ [HeldFrom.staging, .gap].map HeldFrom.code = [0, 1]
    ∧ [JogOutcome.none, .done, .limit, .stop, .lost, .fault, .stall, .cancelled].map JogOutcome.code =
        [0, 1, 2, 3, 4, 5, 6, 7]
    ∧ [LineFunction.generalIn, .generalOut, .shedStop, .pitGate, .holdButton, .continueButton, .beacon, .faultLamp,
        .groupMoving].map LineFunction.code = [0, 1, 2, 3, 4, 5, 6, 7, 8]
    ∧ [LineParameter.group 0, .group 1, .group 2, .group 3, .all, .absent].map LineParameter.code =
        [0, 1, 2, 3, 4, 0xFF]
    ∧ [Polarity.activeHigh, .activeLow].map Polarity.code = [0, 1]
    ∧ [Level.high, .low].map Level.code = [0, 1]
    ∧ boolCode false = 0 ∧ boolCode true = 1)
  -- the bits of the sets
  ∧ ([NodeFlag.localStop, .motorFault, .strokeEnd, .padContact].map NodeFlag.bit = [0, 1, 2, 3]
    ∧ [Condition.overload, .nodeStop, .nodeFault, .stroke].map Condition.bit = [0, 1, 2, 3]
    ∧ [HoldCause.host, .line, .stop, .gate, .breach, .blind, .overload, .skew, .nodeStop, .nodeFault, .stroke, .lost,
        .stall].map HoldCause.bit = [0, 1, 2, 3, 4, 5, 6, 7, 8, 9, 10, 11, 12]
    ∧ [Flag.stop, .plan, .bind, .lost, .found, .breach, .warn, .load, .line, .jog].map Flag.bit =
        [0, 1, 2, 3, 4, 5, 6, 7, 8, 9]
    ∧ ∀ g : GroupId, (Flag.stage g).bit = 10 + 4 * g.val ∧ (Flag.gap g).bit = 11 + 4 * g.val
        ∧ (Flag.arrived g).bit = 12 + 4 * g.val ∧ (Flag.held g).bit = 13 + 4 * g.val)

/-! ### Points (chapter 2) -/

/-- An accepted ENROL-POINT makes a VACANT point DRAFT at a free column address with its probe queued, and takes an
IDLE link to RUNNING (R25, R75, R84); an accepted BIND queues a fresh probe (R28, R84). Their checks are made in R39's
order, each refusal with its status and payload; that a refusal at the in-flight or the state stage gives the point id is
the model's reading (log 23). -/
def Obligations.EnrolAndBind : Prop :=
  (∀ (s : State) (p : PointId) (a : Address), s.Working → 1 ≤ a.node.val → (s.point p).life = .vacant →
      (∀ q, (s.point q).life ≠ .vacant → (s.point q).address ≠ some a) →
      let e := s.engine a.link
      let joined : Engine :=
        match e.link with
        | .idle => { e with link := .running, queue := e.queue ++ [p] }
        | .running => { e with queue := e.queue ++ [p] }
        | .resetting => e
      exec (.enrolPoint (.takes ⟨p.val, ⟨a.link.val, a.node.val⟩⟩)) s =
        .next (s.answered
          (((s.setPoint p { Point.vacant with life := .draft, address := some a, bindOutcome := .pending }).setEngine
            a.link joined).settle) 0x10 .done []))
    ∧ (∀ (s : State) (o : EnrolOps), s.Working →
        ¬ (o.point < 48 ∧ o.address.link < 4 ∧ 1 ≤ o.address.node ∧ o.address.node ≤ 15) →
        exec (.enrolPoint (.takes o)) s = .next (s.answered s 0x10 .refusedRange []))
    ∧ (∀ (s : State) (p : PointId) (a : Address), s.Working → 1 ≤ a.node.val →
        s.RefusesInOrder (.enrolPoint (.takes ⟨p.val, ⟨a.link.val, a.node.val⟩⟩)) 0x10
          [refusesIf ((s.point p).life ≠ .vacant) .refusedState [0x01, byte p.val],
           refusesFor (lowest fun q => (s.point q).life != .vacant && (s.point q).address == some a) .conflict 0x01])
    ∧ (∀ (s : State) (p : PointId) (a : Address), s.Working → (s.point p).life = .draft →
        (s.point p).bindOutcome ≠ .pending → (s.point p).address = some a →
        let e := s.engine a.link
        let queued : Engine := if e.link = .running then { e with queue := e.queue ++ [p] } else e
        exec (.bind (.takes p.val)) s =
          .next (s.answered (((s.setPoint p { s.point p with bindOutcome := .pending }).setEngine a.link queued).settle)
            0x11 .accepted []))
    ∧ (∀ (s : State) (n : Nat), s.Working → 48 ≤ n →
        exec (.bind (.takes n)) s = .next (s.answered s 0x11 .refusedRange []))
    ∧ ∀ (s : State) (p : PointId), s.Working →
        s.RefusesInOrder (.bind (.takes p.val)) 0x11
          [refusesIf ((s.point p).bindOutcome = .pending) .busy [0x01, byte p.val],
           refusesIf ((s.point p).life ≠ .draft) .refusedState [0x01, byte p.val]]

/-- An accepted RETIRE-POINT makes the point VACANT and takes it off its link, where an answer awaited for it will be
discarded (R42, R83); a link whose last point leaves goes IDLE (R75); its checks and their payloads (R42), the point id at
the refusal of a VACANT point being the model's reading (log 23). An engine left with nothing to poll or probe rests, its
cycle position absent (the model's choice, log 30). -/
def Obligations.RetirePointResult : Prop :=
  (∀ (s : State) (p : PointId) (a : Address), s.Working → (s.point p).life ≠ .vacant → (s.point p).seat = none →
      (∀ c x, s.constraint c = some x → x.kind = .custom → p ∉ x.terms.points) → (s.point p).address = some a →
      exec (.retirePoint (.takes p.val)) s =
        .next (s.answered
          (((s.setPoint p Point.vacant).setEngine a.link ((s.engine a.link).without p)).idleIfEmpty a.link).settle
          0x12 .done []))
    ∧ (∀ (e : Engine) (p : PointId),
        let x : Engine :=
          { e with
            roster := e.roster.filter fun r => r.point != p
            queue := e.queue.filter fun q => q != p
            attempts := if e.queue.head? = some p then 0 else e.attempts
            exchange := e.exchange.map (Exchange.discardFor p) }
        e.without p =
          if (e.exchange = none ∨ e.exchange = some .allStop) ∧ x.roster = [] ∧ x.queue = [] then
            { x with cycle := none }
          else x)
    ∧ (∀ (p q : PointId) (n : NodeAddr) (permit : Permit) (target : Option Nat) (stop d : Bool),
        Exchange.discardFor p (.poll q n permit target stop d) = .poll q n permit target stop (d || q == p)
          ∧ Exchange.discardFor p (.probe q n d) = .probe q n (d || q == p)
          ∧ Exchange.discardFor p .allStop = .allStop)
    ∧ (∀ (t : State) (l : LinkId), t.idleIfEmpty l =
        if (t.engine l).link = .running ∧ ∀ q, (t.point q).onLink l = false then
          t.setEngine l { t.engine l with
            link := .idle, roster := [], queue := [], cycle := none
            exchange := (t.engine l).exchange.map Exchange.discard }
        else t)
    ∧ (∀ (s : State) (n : Nat), s.Working → 48 ≤ n →
        exec (.retirePoint (.takes n)) s = .next (s.answered s 0x12 .refusedRange []))
    ∧ ∀ (s : State) (p : PointId), s.Working →
        s.RefusesInOrder (.retirePoint (.takes p.val)) 0x12
          [refusesIf ((s.point p).life = .vacant) .refusedState [0x01, byte p.val],
           refusesFor ((s.point p).seat.map (·.body)) .refusedState 0x02,
           refusesFor (lowest fun c => (s.constraint c).any fun x => x.kind == .custom && x.terms.points.contains p)
             .refusedState 0x03]

/-- An accepted RECAPTURE-REST makes the rest height the reported height, so that lift is 0, and in a judged plan
evaluates the point's constraints (R35, R96); it is refused with REFUSED-RANGE for an id above 47, with REFUSED-LOCKED in
service, and with REFUSED-STATE for a point that is not BOUND or PLANNED or not LIVE (R35, R39), the point id in the payload
of that refusal being the model's reading (log 23). -/
def Obligations.RecaptureRestResult : Prop :=
  (∀ (s : State) (p : PointId), s.Working → s.plan.state ≠ .inService →
      ((s.point p).life = .bound ∨ (s.point p).life = .planned) → (s.point p).health = .live →
      exec (.recaptureRest (.takes p.val)) s =
        .next (s.answered
          ((s.setPoint p { s.point p with rest := (s.point p).height }).evaluateIndex p).settle 0x13 .done [])
      ∧ ∀ h, (s.point p).height = some h → ({ s.point p with rest := (s.point p).height } : Point).lift = some 0)
    ∧ (∀ (s : State) (n : Nat), s.Working → 48 ≤ n →
        exec (.recaptureRest (.takes n)) s = .next (s.answered s 0x13 .refusedRange []))
    ∧ ∀ (s : State) (p : PointId), s.Working →
        s.RefusesInOrder (.recaptureRest (.takes p.val)) 0x13
          [refusesIf (s.plan.state = .inService) .refusedLocked,
           refusesIf (¬ (((s.point p).life = .bound ∨ (s.point p).life = .planned) ∧ (s.point p).health = .live))
             .refusedState [0x01, byte p.val]]

/-- An AMEND-POINT that gives a derating, an inhibit or both writes them on every point of the scope set, and
OVERLOAD is judged where a derating changed (R41, R104, R179); one that gives a column address moves the focus point
there and unbinds it (R31, R40): the point leaves its old link, which goes IDLE with its last point (R75), and its probe
joins the new one (R84); the skew entry of its body becomes absent (R107), and nothing else changes. The scope set is the
focus, the corners of its body, the members of its group, or every BOUND or PLANNED point, by the scope held (R179). One
whose every value stands already changes nothing. The checks, and the refusing point
(R39 to R41); that an address amendment refused for a PLANNED, a VACANT or another point gives that point's id is the
model's reading (log 23). -/
def Obligations.AmendPointResult : Prop :=
  (∀ (s : State) (o : AmendPointOps) (set : List PointId), s.Working → o.address = none →
      (o.derated.isSome ∨ o.inhibit.isSome) → (∀ d, o.derated = some d → 1 ≤ d ∧ d ≤ 6000) →
      s.scopeSet = some set →
      (∀ p ∈ set, ∀ d, o.derated = some d →
        ((s.point p).life = .bound ∨ (s.point p).life = .planned)
          ∧ ∀ k, (s.point p).ratedCapacity = some k → d ≤ k) →
      (∀ p ∈ set, o.inhibit.isSome → (s.point p).life ≠ .vacant) →
      ((∃ p ∈ set, (∃ d, o.derated = some d ∧ (s.point p).derated ≠ some d)
          ∨ ∃ b, o.inhibit = some b ∧ (s.point p).inhibit ≠ b) →
        exec (.amendPoint (.takes o)) s =
          .next (s.answered ((s.writeDerating set o.derated).writeInhibit set o.inhibit).settle 0x14 .done []))
      ∧ ((∀ p ∈ set, (∀ d, o.derated = some d → (s.point p).derated = some d)
          ∧ ∀ b, o.inhibit = some b → (s.point p).inhibit = b) →
        exec (.amendPoint (.takes o)) s = .next (s.answered s 0x14 .done [])))
    ∧ (∀ (s : State) (set : List PointId) (b : Bool),
        s.writeInhibit set (some b) = s.mapPoints fun p x => if p ∈ set then { x with inhibit := b } else x)
    ∧ (∀ (s : State) (set : List PointId) (d : Nat),
        s.writeDerating set (some d) =
          (set.filter fun p => (s.point p).derated != some d).foldl State.judgeOverload
            (s.mapPoints fun p x => if p ∈ set then { x with derated := some d } else x)
        ∧ (s.mapPoints fun p x => if p ∈ set then { x with derated := some d } else x).Judged
            (s.writeDerating set (some d)))
    ∧ (∀ (s : State) (p : PointId),
        ((∃ n d, (s.point p).load = some n ∧ (s.point p).derated = some d ∧ d < n) →
          s.judgeOverload p = s.judgeCondition p .overload true)
        ∧ (¬ (∃ n d, (s.point p).load = some n ∧ (s.point p).derated = some d ∧ d < n) →
          s.judgeOverload p = s.judgeCondition p .overload false))
    ∧ (∀ s : State,
        let x := s.point s.port.focus
        (s.port.scope = .one → s.scopeSet = some [s.port.focus])
        ∧ (s.port.scope = .body →
            (x.seat = none → s.scopeSet = none)
            ∧ ∀ w y, x.seat = some w → s.body w.body = some y → ∃ set, s.scopeSet = some set
                ∧ set.Pairwise (· < ·) ∧ ∀ p, p ∈ set ↔ p ∈ [y.ll, y.lr, y.tl, y.tr])
        ∧ (s.port.scope = .group →
            (x.group = none → s.scopeSet = none)
            ∧ ∀ g, x.group = some g → ∃ set, s.scopeSet = some set ∧ set.Pairwise (· < ·)
                ∧ ∀ p, p ∈ set ↔ ∃ b ∈ (s.group g).members, ∃ y, s.body b = some y ∧ p ∈ y.corners)
        ∧ (s.port.scope = .all → ∃ set, s.scopeSet = some set ∧ set.Pairwise (· < ·)
            ∧ ∀ p, p ∈ set ↔ (s.point p).life = .bound ∨ (s.point p).life = .planned))
    ∧ (∀ (s : State) (p : PointId) (a b : Address), (s.point p).address = some b → s.SeatsMatch →
        let t := s.readdress p a
        ((s.point p).seat = none → t.skew = s.skew)
        ∧ (∀ w, (s.point p).seat = some w → t.skew = s.skew.put w.body false)
        ∧ t = { s with points := t.points, links := t.links, skew := t.skew })
    ∧ (∀ (s : State) (o : AmendPointOps) (a : Address), s.Working → 1 ≤ a.node.val →
        o.address = some ⟨a.link.val, a.node.val⟩ → o.derated = none → s.port.scope = .one → s.PlanOpen →
        ((s.point s.port.focus).life = .draft ∨ (s.point s.port.focus).life = .bound) →
        (∀ q, q ≠ s.port.focus → (s.point q).life ≠ .vacant → (s.point q).address ≠ some a) →
        ((s.point s.port.focus).address ≠ some a →
          exec (.amendPoint (.takes o)) s =
            .next (s.answered ((s.readdress s.port.focus a).writeInhibit [s.port.focus] o.inhibit).settle 0x14 .done []))
        ∧ ((s.point s.port.focus).address = some a →
            exec (.amendPoint (.takes o)) s =
              .next (s.answered
                (if o.inhibit = none ∨ o.inhibit = some (s.point s.port.focus).inhibit then s
                 else (s.writeInhibit [s.port.focus] o.inhibit).settle) 0x14 .done [])))
    ∧ (∀ (s : State) (p : PointId) (a b : Address), (s.point p).address = some b →
        let t := s.readdress p a
        let join (e : Engine) : Engine :=
          match e.link with
          | .idle => { e with link := .running, queue := e.queue ++ [p] }
          | .running => { e with queue := e.queue ++ [p] }
          | .resetting => e
        let left := (s.engine b.link).without p
        t.point p = { (s.point p).unbind with address := some a }
        ∧ (∀ q, q ≠ p → t.point q = s.point q)
        ∧ (a.link = b.link → t.engine a.link = join left)
        ∧ (a.link ≠ b.link → t.engine a.link = join (s.engine a.link)
            ∧ t.engine b.link =
              if left.link = .running ∧ ∀ q, q ≠ p → (s.point q).onLink b.link = false then
                { left with
                  link := .idle, roster := [], queue := [], cycle := none
                  exchange := left.exchange.map Exchange.discard }
              else left)
        ∧ (∀ l, l ≠ a.link → l ≠ b.link → t.engine l = s.engine l)
        ∧ ∃ u : State, u = { s with points := u.points, links := u.links } ∧ u.Judged t)
    ∧ (∀ (s : State) (o : AmendPointOps), s.Working →
        ¬ ((o.address.isSome ∨ o.derated.isSome ∨ o.inhibit.isSome) ∧ ¬ (o.address.isSome ∧ o.derated.isSome)
          ∧ (∀ a, o.address = some a → a.link < 4 ∧ 1 ≤ a.node ∧ a.node ≤ 15)
          ∧ ∀ d, o.derated = some d → 1 ≤ d ∧ d ≤ 6000) →
        exec (.amendPoint (.takes o)) s = .next (s.answered s 0x14 .refusedRange []))
    ∧ (∀ (s : State) (o : AmendPointOps) (a : Address), s.Working → 1 ≤ a.node.val →
        o.address = some ⟨a.link.val, a.node.val⟩ → o.derated = none →
        let p := s.port.focus
        s.RefusesInOrder (.amendPoint (.takes o)) 0x14
          [refusesIf (s.port.scope ≠ .one) .refusedRange, refusesIf (s.plan.state = .inService) .refusedLocked,
           refusesIf ((s.point p).life = .planned) .refusedLocked [0x01, byte p.val],
           refusesIf (s.plan.state = .compiling) .busy,
           refusesIf ((s.point p).life = .vacant) .refusedState [0x01, byte p.val],
           refusesFor (lowest fun q => q != p && (s.point q).life != .vacant && (s.point q).address == some a)
             .conflict 0x01])
    ∧ ∀ (s : State) (o : AmendPointOps), s.Working → o.address = none → (o.derated.isSome ∨ o.inhibit.isSome) →
        (∀ d, o.derated = some d → 1 ≤ d ∧ d ≤ 6000) →
        (s.scopeSet = none →
          exec (.amendPoint (.takes o)) s = .next (s.answered s 0x14 .refusedState [0x01, byte s.port.focus.val]))
        ∧ ∀ set, s.scopeSet = some set →
          s.RefusesInOrder (.amendPoint (.takes o)) 0x14
            [refusesFor (set.find? fun p => o.derated.any fun d => (s.point p).ratedCapacity.any (· < d))
               .refusedRange 0x01,
             refusesFor (set.find? fun p =>
                 (o.derated.isSome && (s.point p).life != .bound && (s.point p).life != .planned)
                   || (o.inhibit.isSome && (s.point p).life == .vacant)) .refusedState 0x01]

/-! ### Bodies (chapter 1) -/

/-- An accepted DEFINE-BODY writes the record with DEFAULT limits replaced, names the body and corner on its four
points, takes the plan to DRAFTED with the fall if it was COMPILED, and judges the body's skew (R9, R10, R11, R107; that a
skew judged within the request sets LOAD is the model's reading of R9 against R107, log 18). Writing a body record changes
that record and the seats of the points it names or that named it, and nothing else (R3). Its checks are made in the order
of R8 and R10, each refusal with its status and payload. -/
def Obligations.DefineBodyResult : Prop :=
  (∀ (s : State) (b : BodyId) (pos : Position) (ll lr tl tr : PointId) (j : Joint) (side end_ twist : OrDefault),
    s.Working → [ll, lr, tl, tr].Nodup → (pos = 0 → j = .none) →
    (∀ n, side = .value n ∨ end_ = .value n ∨ twist = .value n → 1 ≤ n ∧ n ≤ 2000) →
    let x : Body := ⟨pos, ll, lr, tl, tr, j, side.get 100, end_.get 300, twist.get 60, none⟩
    let c : Instr := .defineBody (.takes ⟨b.val, pos.val, ll.val, lr.val, tl.val, tr.val, j, side, end_, twist⟩)
    (s.PlanOpen → s.AllFree → s.body b = none →
      (∀ p ∈ [ll, lr, tl, tr], (s.point p).life ≠ .vacant ∧ (s.point p).seat = none) →
      (∀ c x, s.body c = some x → x.position ≠ pos) →
      exec c s = .next (s.answered (((s.writeBody b (some x)).planTo .drafted).judgeSkew b).settle 0x20 .done []))
    ∧ (s.writeBody b (some x)).body b = some x
    ∧ (∀ c, ((s.writeBody b (some x)).point (x.corner c)).seat = some ⟨b, c⟩)
    ∧ s.RefusesInOrder c 0x20
        (s.bodyChecks ((s.body b).isSome)
          ++ [refusesFor ([ll, lr, tl, tr].find? fun p => (s.point p).life == .vacant || (s.point p).seat.isSome)
                .refusedState 0x01,
              refusesFor (lowest fun c => c != b && (s.body c).any fun y => y.position == pos) .conflict 0x02]))
  ∧ (∀ (s : State) (o : DefineBodyOps), s.Working →
      ¬ (o.body < 12 ∧ o.position < 12 ∧ (∀ n ∈ [o.ll, o.lr, o.tl, o.tr], n < 48) ∧ [o.ll, o.lr, o.tl, o.tr].Nodup
        ∧ (o.position = 0 → o.joint = .none)
        ∧ ∀ n, o.side = .value n ∨ o.end_ = .value n ∨ o.twist = .value n → 1 ≤ n ∧ n ≤ 2000) →
      exec (.defineBody (.takes o)) s = .next (s.answered s 0x20 .refusedRange []))
  ∧ ∀ (s : State) (b : BodyId) (x : Option Body),
      (∀ r c, x = some r → r.corners.Nodup →
        (s.writeBody b x).point (r.corner c) = { s.point (r.corner c) with seat := some ⟨b, c⟩ })
      ∧ (∀ p, (∀ r, x = some r → p ∉ r.corners) →
          (s.writeBody b x).point p =
            if ∃ w ∈ (s.point p).seat, w.body = b then { s.point p with seat := none } else s.point p)
      ∧ s.writeBody b x = { s with bodies := s.bodies.put b x, points := (s.writeBody b x).points }

/-- An accepted AMEND-BODY writes the resulting record, with its points' side of the relation, takes the plan to
DRAFTED, and judges skew where a corner changed; one that changes no field changes nothing (R9, R12 to R15, R107; that a
skew judged within the request sets LOAD is the model's reading of R9 against R107, log 18). The resulting record takes
the values given and keeps the others. Its checks are made in the order of R8 and R12, each refusal with its status and
payload. -/
def Obligations.AmendBodyResult : Prop :=
  (∀ (s : State) (b : BodyId) (x : Body) (o : AmendBodyOps), s.Working → s.body b = some x → o.body = b.val →
    o.ok = true → (x.amend o).corners.Nodup → ((x.amend o).position = 0 → (x.amend o).joint = .none) →
    (s.PlanOpen → s.AllFree →
      (∀ p ∈ (x.amend o).corners, p ∉ x.corners → (s.point p).life ≠ .vacant ∧ (s.point p).seat = none) →
      (∀ c y, c ≠ b → s.body c = some y → y.position ≠ (x.amend o).position) →
      let s1 := (s.writeBody b (some (x.amend o))).planTo .drafted
      exec (.amendBody (.takes o)) s =
        .next (s.answered
          (if x.amend o = x then s
           else if (x.amend o).corners = x.corners then s1.settle else (s1.judgeSkew b).settle) 0x21 .done []))
    ∧ s.RefusesInOrder (.amendBody (.takes o)) 0x21
        (s.bodyChecks False
          ++ [refusesFor ((x.amend o).corners.find? fun p =>
                !x.corners.contains p && ((s.point p).life == .vacant || (s.point p).seat.isSome)) .refusedState 0x01,
              refusesFor (lowest fun c => c != b && (s.body c).any fun y => y.position == (x.amend o).position)
                .conflict 0x02]))
  ∧ (∀ (x : Body) (o : AmendBodyOps), o.ok = true →
      let limit (given : Option OrDefault) (default held : Nat) : Nat :=
        match given with
        | none => held
        | some (.value n) => n
        | some .default_ => default
      (x.amend o).position.val = o.position.getD x.position.val ∧ (x.amend o).joint = o.joint.getD x.joint
      ∧ (x.amend o).ll.val = o.ll.getD x.ll.val ∧ (x.amend o).lr.val = o.lr.getD x.lr.val
      ∧ (x.amend o).tl.val = o.tl.getD x.tl.val ∧ (x.amend o).tr.val = o.tr.getD x.tr.val
      ∧ (x.amend o).side = limit o.side 100 x.side ∧ (x.amend o).end_ = limit o.end_ 300 x.end_
      ∧ (x.amend o).twist = limit o.twist 60 x.twist ∧ (x.amend o).group = x.group)
  ∧ (∀ o : AmendBodyOps, o.ok = true ↔
      o.body < 12
      ∧ (o.position.isSome ∨ o.joint.isSome ∨ o.ll.isSome ∨ o.lr.isSome ∨ o.tl.isSome ∨ o.tr.isSome ∨ o.side.isSome
        ∨ o.end_.isSome ∨ o.twist.isSome)
      ∧ (∀ n, o.position = some n → n < 12)
      ∧ (∀ n, o.ll = some n ∨ o.lr = some n ∨ o.tl = some n ∨ o.tr = some n → n < 48)
      ∧ ∀ n, o.side = some (.value n) ∨ o.end_ = some (.value n) ∨ o.twist = some (.value n) → 1 ≤ n ∧ n ≤ 2000)
  ∧ (∀ (s : State) (o : AmendBodyOps), s.Working → o.ok = false →
      exec (.amendBody (.takes o)) s = .next (s.answered s 0x21 .refusedRange []))
  ∧ (∀ (s : State) (b : BodyId) (x : Body) (o : AmendBodyOps), s.Working → s.body b = some x → o.body = b.val →
      ¬ (x.amend o).corners.Nodup ∨ ((x.amend o).position = 0 ∧ (x.amend o).joint ≠ .none) →
      exec (.amendBody (.takes o)) s = .next (s.answered s 0x21 .refusedRange []))
  ∧ ∀ (s : State) (b : BodyId) (o : AmendBodyOps), s.Working → s.body b = none → o.body = b.val → o.ok = true →
      let corners := [o.ll, o.lr, o.tl, o.tr].reduceOption
      let joint := o.position = some 0 ∧ o.joint ≠ none ∧ o.joint ≠ some .none
      (¬ corners.Nodup ∨ joint → exec (.amendBody (.takes o)) s = .next (s.answered s 0x21 .refusedRange []))
      ∧ (corners.Nodup → ¬ joint → s.RefusesInOrder (.amendBody (.takes o)) 0x21 (s.bodyChecks True))

/-- An accepted RETIRE-BODY makes the body EMPTY, frees its four points, and takes the plan to DRAFTED, or to EMPTY
with the last body (R9, R16); its skew entry is absent (R107). Its checks are R8's, each refusal with its status and
payload. -/
def Obligations.RetireBodyResult : Prop :=
  (∀ (s : State) (b : BodyId) (x : Body), s.Working → s.PlanOpen → s.AllFree → s.SeatsMatch → s.body b = some x →
      exec (.retireBody (.takes b.val)) s =
        .next (s.answered
          (((s.writeBody b none).planTo (if ∃ c, c ≠ b ∧ (s.body c).isSome then .drafted else .empty)).setSkew b
            false).settle 0x22 .done [])
      ∧ (s.writeBody b none).body b = none
      ∧ ∀ c, ((s.writeBody b none).point (x.corner c)).seat = none)
    ∧ (∀ (s : State) (n : Nat), s.Working → 12 ≤ n →
        exec (.retireBody (.takes n)) s = .next (s.answered s 0x22 .refusedRange []))
    ∧ ∀ (s : State) (b : BodyId), s.Working →
        s.RefusesInOrder (.retireBody (.takes b.val)) 0x22 (s.bodyChecks (s.body b = none))

/-! ### Constraints and the plan (chapters 3 and 5) -/

/-- An accepted ADD-CONSTRAINT creates a CUSTOM record, IDLE, at the lowest EMPTY id and gives that id; a full table
refuses it with REFUSED-FULL (R67, R68); an accepted RETIRE-CONSTRAINT makes a CUSTOM record EMPTY (R70). Either makes a
COMPILED plan fall to DRAFTED; the plan's fall makes every PLANNED point BOUND, empties every index and puts every record
in IDLE with its last value absent (R53). The checks of both are made in the order of their rules. -/
def Obligations.AddAndRetireConstraint : Prop :=
  (∀ (s : State) (t : Terms) (limit : Nat) (warn : OrDefault), s.Working →
      t.points.Nodup → 1 ≤ limit → limit ≤ 2000 → (∀ n, warn = .value n → 50 ≤ n ∧ n ≤ 100) →
      let add : Instr := .addConstraint (.takes ⟨t.points.map (·.val), limit, warn⟩)
      (∀ c : ConstraintId, s.PlanOpen → s.AllFree → (∀ p ∈ t.points, (s.point p).seat.isSome) →
        s.constraint c = none → (∀ d : ConstraintId, d.val < c.val → (s.constraint d).isSome) →
        exec add s =
          .next (s.answered
            ((s.setConstraint c (some ⟨.custom, t, limit, warn.get s.limits.warnPercent, .idle, none, none⟩)).planTo
              (if s.plan.state = .compiled then .drafted else s.plan.state)).settle 0x30 .done [0x03, byte c.val]))
      ∧ s.RefusesInOrder add 0x30
          [refusesIf (s.plan.state = .inService) .refusedLocked, refusesIf (s.plan.state = .compiling) .busy,
           refusesFor s.groupInUse .refusedState 0x04,
           refusesFor (t.points.find? fun p => (s.point p).seat.isNone) .refusedState 0x01,
           refusesIf (∀ c, (s.constraint c).isSome) .refusedFull])
    ∧ (∀ (s : State) (o : AddConstraintOps), s.Working →
        ¬ ((o.terms.length = 2 ∨ o.terms.length = 4) ∧ (∀ n ∈ o.terms, n < 48) ∧ o.terms.Nodup
          ∧ 1 ≤ o.limit ∧ o.limit ≤ 2000 ∧ ∀ n, o.warn = .value n → 50 ≤ n ∧ n ≤ 100) →
        exec (.addConstraint (.takes o)) s = .next (s.answered s 0x30 .refusedRange []))
    ∧ (∀ (s : State) (c : ConstraintId) (x : Constraint), s.Working → s.PlanOpen → s.AllFree →
        s.constraint c = some x → x.kind = .custom →
        exec (.retireConstraint (.takes c.val)) s =
          .next (s.answered
            ((s.setConstraint c none).planTo (if s.plan.state = .compiled then .drafted else s.plan.state)).settle
            0x32 .done []))
    ∧ (∀ (s : State) (n : Nat), s.Working → 128 ≤ n →
        exec (.retireConstraint (.takes n)) s = .next (s.answered s 0x32 .refusedRange []))
    ∧ (∀ (s : State) (c : ConstraintId), s.Working →
        s.RefusesInOrder (.retireConstraint (.takes c.val)) 0x32
          [refusesIf (s.plan.state = .inService) .refusedLocked, refusesIf (s.plan.state = .compiling) .busy,
           refusesIf (¬ ∃ x ∈ s.constraint c, x.kind = .custom) .refusedState,
           refusesFor s.groupInUse .refusedState 0x04])
    ∧ ∀ (u : State) (st : PlanState),
        (u.plan.state ≠ .compiled → u.planTo st = { u with plan := { u.plan with state := st } })
        ∧ (u.plan.state = .compiled →
            (u.planTo st).plan = { u.plan with state := st }
            ∧ (∀ p, (u.planTo st).point p = { u.point p with
                life := if (u.point p).life = .planned then .bound else (u.point p).life
                index := [] })
            ∧ (∀ d, (u.planTo st).constraint d = (u.constraint d).map fun y => { y with state := .idle, last := none })
            ∧ u.planTo st = { u with
                plan := (u.planTo st).plan, points := (u.planTo st).points
                constraints := (u.planTo st).constraints })

/-- An accepted AMEND-CONSTRAINT writes the fields given and, where one changed in a COMPILED or IN_SERVICE plan,
evaluates the record (R69, R96); in service neither field may rise (R55, R69). Its other refusals, with their statuses. -/
def Obligations.AmendConstraintResult : Prop :=
  (∀ (s : State) (c : ConstraintId) (x : Constraint) (limit : Option Nat) (warn : Option OrDefault), s.Working →
    s.constraint c = some x → s.plan.state ≠ .compiling → s.plan.state ≠ .empty →
    (limit.isSome ∨ warn.isSome) → (∀ n, limit = some n → 1 ≤ n ∧ n ≤ 2000) →
    (∀ n, warn = some (.value n) → 50 ≤ n ∧ n ≤ 100) →
    let newLimit := limit.getD x.limit
    let newWarn := (warn.map (OrDefault.get s.limits.warnPercent)).getD x.warn
    let new : Constraint := { x with limit := newLimit, warn := newWarn }
    let s1 := s.setConstraint c (some new)
    ((s.plan.state = .inService → newLimit ≤ x.limit ∧ newWarn ≤ x.warn) →
      exec (.amendConstraint (.takes ⟨c.val, limit, warn⟩)) s =
        .next (s.answered
          (if new = x then s
           else if s.plan.state = .drafted then s1.settle else (s1.evaluate c).settle) 0x31 .done []))
    ∧ (s.plan.state = .inService → (x.limit < newLimit ∨ x.warn < newWarn) →
        exec (.amendConstraint (.takes ⟨c.val, limit, warn⟩)) s = .next (s.answered s 0x31 .refusedLocked [])))
  ∧ (∀ (s : State) (o : AmendConstraintOps), s.Working →
      ¬ (o.constraint < 128 ∧ (o.limit.isSome ∨ o.warn.isSome) ∧ (∀ n, o.limit = some n → 1 ≤ n ∧ n ≤ 2000)
        ∧ ∀ n, o.warn = some (.value n) → 50 ≤ n ∧ n ≤ 100) →
      exec (.amendConstraint (.takes o)) s = .next (s.answered s 0x31 .refusedRange []))
  ∧ ∀ (s : State) (c : ConstraintId) (limit : Option Nat) (warn : Option OrDefault), s.Working →
      (limit.isSome ∨ warn.isSome) → (∀ n, limit = some n → 1 ≤ n ∧ n ≤ 2000) →
      (∀ n, warn = some (.value n) → 50 ≤ n ∧ n ≤ 100) → s.plan.state ≠ .inService ∨ s.constraint c = none →
      s.RefusesInOrder (.amendConstraint (.takes ⟨c.val, limit, warn⟩)) 0x31
        [refusesIf (s.plan.state = .compiling) .busy, refusesIf (s.plan.state = .empty) .refusedState,
         refusesIf (s.constraint c = none) .refusedState]

/-- An evaluation writes the record's value (R47) as its last value and its state from R95's table; entering WARN sets
WARN and makes no claim, entering BREACH or BLIND sets BREACH and makes a claim of its name on each group that a term names
and on no other (R98; what a claim does to a group is HoldClaims), and each of the three ends the jog of a term point
with LIMIT (R95, R97); an evaluation that leaves the state, or enters CLEAR, has no other effect. In a COMPILED or
IN_SERVICE plan a point's index is evaluated record by record, in any other nothing is (R96). -/
def Obligations.EvaluationFollowsItsTable : Prop :=
  (∀ (s : State) (c : ConstraintId) (x : Constraint) (v : Int),
    s.constraint c = some x → s.constraintValue x.terms = some v →
    let lost := ∃ p ∈ x.terms.points, (s.point p).health = .lost
    let st := judgeValue (s.anyTermLost x.terms) v x.limit x.warn
    let named (g : GroupId) := ∃ p ∈ x.terms.points, (s.point p).group = some g
    (lost → st = .blind)
    ∧ (¬ lost → x.limit < v.natAbs → st = .breach)
    ∧ (¬ lost → ¬ x.limit < v.natAbs → x.limit * x.warn < v.natAbs * 100 → st = .warn)
    ∧ (¬ lost → ¬ x.limit < v.natAbs → ¬ x.limit * x.warn < v.natAbs * 100 → st = .clear)
    ∧ (s.evaluate c).constraint c = some { x with state := st, last := some v }
    ∧ (st = x.state → s.evaluate c = s.setConstraint c (some { x with last := some v }))
    ∧ (st ≠ x.state → st = .clear →
        s.evaluate c = s.setConstraint c (some { x with state := .clear, last := some v }))
    ∧ (st ≠ x.state → st = .warn → (s.evaluate c).attention.isSet .warn = true
        ∧ (s.evaluate c).groups = s.groups ∧ ∀ g, (s.evaluate c).attention.isSet (.held g) = s.attention.isSet (.held g))
    ∧ (st ≠ x.state → st = .breach ∨ st = .blind → (s.evaluate c).attention.isSet .breach = true
        ∧ ∀ g, (named g → (s.evaluate c).group g = (s.claim g (if st = .breach then .breach else .blind)).group g
              ∧ (((s.group g).state = .staging ∨ (s.group g).state = .gap) →
                  (s.evaluate c).attention.isSet (.held g) = true))
            ∧ (¬ named g → (s.evaluate c).group g = s.group g)
            ∧ (¬ (named g ∧ ((s.group g).state = .staging ∨ (s.group g).state = .gap)) →
                (s.evaluate c).attention.isSet (.held g) = s.attention.isSet (.held g)))
    ∧ (st ≠ x.state → st = .warn ∨ st = .breach ∨ st = .blind →
        ∀ j, s.jog.active = some j → j.point ∈ x.terms.points → (s.evaluate c).jog = ⟨none, .limit, some j.point⟩)
    ∧ ((∀ j, s.jog.active = some j → j.point ∉ x.terms.points) → (s.evaluate c).jog = s.jog)
    ∧ (∀ d, d ≠ c → (s.evaluate c).constraint d = s.constraint d)
    ∧ s.Judged (s.evaluate c))
  ∧ (∀ (s : State) (a b c d : PointId) (x y z w : Int), (s.point a).lift = some x → (s.point b).lift = some y →
      s.constraintValue (.two a b) = some (x - y)
      ∧ ((s.point c).lift = some z → (s.point d).lift = some w →
          s.constraintValue (.four a b c d) = some ((x - y) - (z - w))))
  ∧ (∀ (x : Point) (h r : Nat), x.height = some h → x.rest = some r → x.lift = some ((h : Int) - (r : Int)))
  ∧ ∀ (s : State) (p : PointId),
      ((s.plan.state = .compiled ∨ s.plan.state = .inService) →
        s.evaluateIndex p = (s.point p).index.foldl State.evaluate s)
      ∧ (s.plan.state ≠ .compiled → s.plan.state ≠ .inService → s.evaluateIndex p = s)

/-- The conditions of a point (R102, R103), judged all four at a stored report (R104), and what one that appears does
(R105): a claim of its name on the point's group and on no other (what a claim does to a group is HoldClaims), LOAD for
OVERLOAD, and the end of the point's jog with FAULT. The judging of a body's skew (R107): the entry is written, and one
that becomes present sets LOAD and makes a SKEW claim on the body's group. -/
def Obligations.ConditionsAndSkewAppear : Prop :=
  (∀ (permit : Permit) (x : Point),
      (x.testCondition permit .overload = true ↔ ∃ n d, x.load = some n ∧ x.derated = some d ∧ d < n)
      ∧ (x.testCondition permit .nodeStop = true ↔ x.flags.getLsbD 0 = true)
      ∧ (x.testCondition permit .nodeFault = true ↔ x.flags.getLsbD 1 = true)
      ∧ (x.testCondition permit .stroke = true ↔
          x.flags.getLsbD 2 = true ∧ (permit = .raise ∨ x.hasCondition .stroke = true)))
  ∧ (∀ (s : State) (p : PointId) (permit : Permit),
      let x := s.point p
      s.judgeConditions p permit =
        ((((s.judgeCondition p .overload (x.testCondition permit .overload)).judgeCondition p .nodeStop
          (x.testCondition permit .nodeStop)).judgeCondition p .nodeFault
          (x.testCondition permit .nodeFault)).judgeCondition p .stroke (x.testCondition permit .stroke)))
  ∧ (∀ (s : State) (p : PointId) (c : Condition) (present : Bool),
      let t := s.judgeCondition p c present
      ((t.point p).hasCondition c = present)
      ∧ (∀ d, d ≠ c → (t.point p).hasCondition d = (s.point p).hasCondition d)
      ∧ ((present = false ∨ (s.point p).hasCondition c = true) →
          t = s.setPoint p { s.point p with conditions := (t.point p).conditions })
      ∧ (present = true → (s.point p).hasCondition c = false →
          (∀ g, (s.point p).group = some g → t.group g = (s.claim g c.cause).group g
            ∧ (((s.group g).state = .staging ∨ (s.group g).state = .gap) → t.attention.isSet (.held g) = true))
          ∧ (∀ g, (s.point p).group ≠ some g →
              t.group g = s.group g ∧ t.attention.isSet (.held g) = s.attention.isSet (.held g))
          ∧ (c = .overload → t.attention.isSet .load = true)
          ∧ ∀ j, s.jog.active = some j → t.jog = if j.point = p then ⟨none, .fault, some p⟩ else s.jog)
      ∧ s.Judged t)
  ∧ (∀ (s : State) (b : BodyId) (x : Body), s.body b = some x →
      let t := s.judgeSkew b
      t.skew = s.skew.put b (s.skewed x)
      ∧ ((s.skewed x = false ∨ s.skew.at b = true) → t = s.setSkew b (s.skewed x))
      ∧ (s.skewed x = true → s.skew.at b = false →
          t.attention.isSet .load = true
          ∧ (∀ g, x.group = some g → t.group g = (s.claim g .skew).group g
              ∧ (((s.group g).state = .staging ∨ (s.group g).state = .gap) → t.attention.isSet (.held g) = true))
          ∧ ∀ g, x.group ≠ some g →
              t.group g = s.group g ∧ t.attention.isSet (.held g) = s.attention.isSet (.held g))
      ∧ s.Judged t)
  ∧ ∀ (s : State) (p : PointId),
      ((s.point p).seat = none → s.judgeSkewOf p = s)
      ∧ ∀ w, (s.point p).seat = some w → s.judgeSkewOf p = s.judgeSkew w.body

/-- A DEFINED body is skewed when each corner's reported load is present and at or above the contact load, and some
corner's load times 100 exceeds the share limit times the sum of the four (R106). -/
def Obligations.SkewTest : Prop :=
  ∀ (s : State) (x : Body), s.skewed x = true ↔
    ∃ a b c d, (s.point x.ll).load = some a ∧ (s.point x.lr).load = some b ∧ (s.point x.tl).load = some c
      ∧ (s.point x.tr).load = some d
      ∧ (∀ n ∈ [a, b, c, d], s.limits.contactLoad ≤ n)
      ∧ ∃ n ∈ [a, b, c, d], s.limits.shareLimit * (a + b + c + d) < n * 100

/-- An accepted COMPILE puts the plan in COMPILING with the joint limit and warn percent taken, empties the DERIVED
records and keeps the CUSTOM ones, with the fall if the plan was COMPILED (R53, R57; that the compilation takes the whole
of the 3 ms that R57 allows at most is the model's choice, log 17); an accepted RELEASE-PLAN returns the plan to COMPILED
and changes no other record (R73). The checks of both, in the order of R56 and of R73. -/
def Obligations.CompileAndRelease : Prop :=
  (∀ s : State, s.Working → (s.plan.state = .drafted ∨ s.plan.state = .compiled) → s.AllFree →
      exec (.compile (.takes ())) s = .next (s.answered s.beginCompile.settle 0x34 .accepted [])
      ∧ s.beginCompile.plan =
          { s.plan with
            state := .compiling
            compilation := some ⟨s.limits.jointLimit, s.limits.warnPercent, 3000⟩ }
      ∧ (∀ c, s.beginCompile.constraint c =
          match s.constraint c with
          | none => none
          | some x =>
            if x.kind ≠ .custom then none
            else if s.plan.state = .compiled then some { x with state := .idle, last := none } else some x)
      ∧ (∀ p, s.beginCompile.point p =
          if s.plan.state = .compiled then
            { s.point p with
              life := if (s.point p).life = .planned then .bound else (s.point p).life
              index := [] }
          else s.point p)
      ∧ s.beginCompile = { s with
          plan := s.beginCompile.plan, constraints := s.beginCompile.constraints, points := s.beginCompile.points })
    ∧ (∀ s : State, s.Working →
        s.RefusesInOrder (.compile (.takes ())) 0x34
          [refusesIf (s.plan.state = .inService) .refusedLocked, refusesIf (s.plan.state = .compiling) .busy,
           refusesIf (s.plan.state = .empty) .refusedState, refusesFor s.groupInUse .refusedState 0x04])
    ∧ (∀ s : State, s.Working → s.plan.state = .inService → s.AllFree → s.jog.active = none →
        (∀ p, (s.point p).life = .planned → s.raised p = false) →
        exec (.releasePlan (.takes ())) s =
          .next (s.answered { s with plan := { s.plan with state := .compiled } } 0x35 .done []))
    ∧ ∀ s : State, s.Working →
        s.RefusesInOrder (.releasePlan (.takes ())) 0x35
          [refusesIf (s.plan.state ≠ .inService) .refusedState, refusesFor s.groupInUse .refusedState 0x04,
           refusesFor (s.jog.active.map (·.point)) .refusedState 0x01,
           refusesFor (lowest fun p => (s.point p).life == .planned && s.raised p) .refusedState 0x01]

/-- The completion of a compilation (R58 to R64); that it makes all its checks and the build in the one event that ends it,
whatever time is left, is the model's reading (log 4, log 17). The check phase examines the bodies in ascending position:
the first corner that is not BOUND fails with NOT_BOUND, then a CLOSED joint with no body before it with POSITION_GAP, or
with JOINT_ORPHAN where no body stands before it at all; then the CUSTOM records in ascending id: one with a term in no
body fails with TERM_OUTSIDE. The build creates the records of R61 at the lowest EMPTY ids, body by body, or fails with
TABLE_FULL; it writes each corner's index, or fails with INDEX_FULL at the lowest point that needs more than eight ids
(R62). A failure leaves the plan DRAFTED with its outcome and offending record and no DERIVED record (R64); success makes
each BOUND corner PLANNED and the plan COMPILED, and evaluates every record once (R63; in ascending id, log 25): WARN is set
where a record enters WARN, BREACH where one enters BREACH or BLIND, and as every group is FREE and the jog slot IDLE while
the plan is COMPILING, no claim holds a group and no jog ends (R97, R99, R101). Either sets PLAN. -/
def Obligations.CompilationCompletes : Prop :=
  (∀ (s : State) (k : Compilation), s.Working → s.plan.state = .compiling → s.plan.compilation = some k →
      (∀ f, s.build k.jointLimit k.warn = .error f →
        exec .compilationComplete s = .next (s.compileFails f).settle
        ∧ (s.compileFails f).plan = ⟨.drafted, f.1, some f.2, none⟩
        ∧ (∀ c, (s.compileFails f).constraint c = (s.constraint c).filter fun x => x.kind == .custom)
        ∧ (s.compileFails f).attention.isSet .plan = true
        ∧ s.compileFails f = { s with
            plan := (s.compileFails f).plan, constraints := (s.compileFails f).constraints
            attention := (s.compileFails f).attention })
      ∧ ∀ t, s.build k.jointLimit k.warn = .ok t →
        exec .compilationComplete s = .next t.compileSucceeds.settle
        ∧ t.compileSucceeds.plan = ⟨.compiled, .success, none, none⟩
        ∧ ({ t.mapPoints fun _ x => if x.life = .bound ∧ x.seat.isSome then { x with life := .planned } else x with
              plan := ⟨.compiled, .success, none, none⟩ } : State).Judged t.compileSucceeds
        ∧ (∀ c x v, t.constraint c = some x → t.constraintValue x.terms = some v →
            t.compileSucceeds.constraint c =
              some { x with state := judgeValue (t.anyTermLost x.terms) v x.limit x.warn, last := some v })
        ∧ t.compileSucceeds.attention.isSet .plan = true
        ∧ (let u : State :=
             { t.mapPoints fun _ x => if x.life = .bound ∧ x.seat.isSome then { x with life := .planned } else x with
               plan := ⟨.compiled, .success, none, none⟩ }
           t.compileSucceeds = ((ids 128).foldl State.evaluate u).raiseFlag .plan
           ∧ (s.InServiceToMove →
              let enters (st : ConstraintState) := ∃ c x v, t.constraint c = some x
                ∧ t.constraintValue x.terms = some v ∧ judgeValue (t.anyTermLost x.terms) v x.limit x.warn = st
                ∧ x.state ≠ st
              (∀ f, t.compileSucceeds.attention.isSet f = true ↔
                s.attention.isSet f = true ∨ f = .plan ∨ (f = .warn ∧ enters .warn)
                  ∨ (f = .breach ∧ (enters .breach ∨ enters .blind)))
              ∧ t.compileSucceeds = { u with
                  constraints := t.compileSucceeds.constraints, attention := t.compileSucceeds.attention }
              ∧ t.groups = s.groups ∧ t.jog = s.jog)))
    ∧ (∀ (s : State) (jointLimit warn : Nat),
        -- the check phase
        (∀ (before after : List (BodyId × Body)) (y : BodyId × Body) (f : Failure),
          s.bodiesInOrder = before ++ y :: after → (∀ z ∈ before, s.checkBody z.1 z.2 = none) →
          s.checkBody y.1 y.2 = some f → s.build jointLimit warn = .error f)
        ∧ (∀ (c : ConstraintId) (x : Constraint), (∀ z ∈ s.bodiesInOrder, s.checkBody z.1 z.2 = none) →
            let outside (r : Constraint) := r.kind = .custom ∧ ∃ p ∈ r.terms.points, (s.point p).seat = none
            (∀ d r, d < c → s.constraint d = some r → ¬ outside r) → s.constraint c = some x → outside x →
            s.build jointLimit warn = .error (.termOutside, .constraint c))
        -- the build phase, with the records to create, each with its body, and the EMPTY ids
        ∧ ((∀ z ∈ s.bodiesInOrder, s.checkBody z.1 z.2 = none) →
            (∀ c x, s.constraint c = some x → x.kind = .custom → ∀ p ∈ x.terms.points, (s.point p).seat ≠ none) →
            let records := s.bodiesInOrder.flatMap fun y => (s.derivedOf jointLimit warn y.1 y.2).map fun x => (y.1, x)
            let free := (ids 128).filter fun c => (s.constraint c).isNone
            (∀ b x, records[free.length]? = some (b, x) → s.build jointLimit warn = .error (.tableFull, .body b))
            ∧ (records.length ≤ free.length → ∃ u : State,
                u = { s with constraints := u.constraints }
                ∧ (∀ q ∈ records.zip free, u.constraint q.2 = some q.1.2)
                ∧ (∀ c, (∀ q ∈ records.zip free, q.2 ≠ c) → u.constraint c = s.constraint c)
                ∧ (∀ p, (s.point p).seat.isSome → 8 < (u.indexOf p).length →
                    (∀ q, q < p → (s.point q).seat.isSome → (u.indexOf q).length ≤ 8) →
                    s.build jointLimit warn = .error (.indexFull, .point p))
                ∧ ((∀ p, (s.point p).seat.isSome → (u.indexOf p).length ≤ 8) →
                    s.build jointLimit warn = .ok (u.mapPoints fun p x =>
                      if x.seat.isSome then { x with index := u.indexOf p } else x)))))
    ∧ (∀ (s : State) (p : PointId),
        (s.indexOf p).Pairwise (· < ·)
        ∧ ∀ c, c ∈ s.indexOf p ↔ ∃ x, s.constraint c = some x ∧ p ∈ x.terms.points)
    ∧ (∀ (s : State) (b : BodyId) (x : Body),
        let earlier := ∃ y ∈ s.bodiesInOrder, y.2.position < x.position
        (∀ p, (x.corners.find? fun q => (s.point q).life != .bound) = some p →
          s.checkBody b x = some (.notBound, .point p))
        ∧ ((∀ p ∈ x.corners, (s.point p).life = .bound) →
            (x.joint = .closed → s.leadingNeighbour x = none → earlier →
              s.checkBody b x = some (.positionGap, .body b))
            ∧ (x.joint = .closed → s.leadingNeighbour x = none → ¬ earlier →
              s.checkBody b x = some (.jointOrphan, .body b))
            ∧ (x.joint ≠ .closed ∨ s.leadingNeighbour x ≠ none → s.checkBody b x = none)))
    ∧ (∀ s : State, s.SeatsMatch →
        s.bodiesInOrder.Pairwise (fun y z => y.2.position < z.2.position)
        ∧ (∀ b x, (b, x) ∈ s.bodiesInOrder ↔ s.body b = some x)
        ∧ ∀ x c y, s.leadingNeighbour x = some (c, y) ↔ s.body c = some y ∧ y.position.val + 1 = x.position.val)
    ∧ ∀ (s : State) (jointLimit warn : Nat) (b : BodyId) (x : Body),
        let make (k : Kind) (t : Terms) (limit : Nat) : Constraint := ⟨k, t, limit, warn, .idle, none, some b⟩
        let own := [make .side (.two x.ll x.lr) x.side, make .side (.two x.tl x.tr) x.side,
          make .end_ (.two x.ll x.tl) x.end_, make .end_ (.two x.lr x.tr) x.end_,
          make .twist (.four x.ll x.lr x.tl x.tr) x.twist]
        (x.joint ≠ .closed → s.derivedOf jointLimit warn b x = own)
        ∧ ∀ c y, x.joint = .closed → s.leadingNeighbour x = some (c, y) →
            s.derivedOf jointLimit warn b x =
              own ++ [make .joint (.two y.tl x.ll) jointLimit, make .joint (.two y.tr x.lr) jointLimit]

/-! ### Groups (chapter 6) -/

/-- An accepted FORM-GROUP makes a FREE group FORMED with its bodies in ascending position and writes the group on
its bodies and their corner points (R113, R115); an accepted DISBAND frees the group and clears the group and motion
fields of its bodies and points (R137). Their checks, in the order of their rules; a group's member points are the corners
of its member bodies, in ascending id (R110). -/
def Obligations.FormAndDisband : Prop :=
  (∀ (s : State) (g : GroupId) (bs : List BodyId), s.Working → bs.Nodup → 1 ≤ bs.length →
      ((s.group g).state = .free → (s.plan.state = .compiled ∨ s.plan.state = .inService) →
        (∀ b ∈ bs, ∃ x, s.body b = some x ∧ x.group = none) →
        (∀ p ∈ s.cornersOf bs, (s.point p).life = .planned ∧ (s.point p).health = .live
          ∧ ∀ j, s.jog.active = some j → j.point ≠ p) →
        (∀ b ∈ bs, ∀ x, s.body b = some x →
          (x.joint = .closed → ∃ c y, s.leadingNeighbour x = some (c, y) ∧ c ∈ bs)
            ∧ ∀ c y, s.trailingNeighbour x = some (c, y) → y.joint = .closed → c ∈ bs) →
        exec (.formGroup (.takes ⟨g.val, bs.map (·.val)⟩)) s = .next (s.answered (s.form g bs).settle 0x40 .done []))
      ∧ s.RefusesInOrder (.formGroup (.takes ⟨g.val, bs.map (·.val)⟩)) 0x40
          [refusesIf (s.plan.state = .compiling) .busy,
           refusesIf ((s.group g).state ≠ .free) .refusedState [0x06, byte (s.group g).state.code],
           refusesIf (s.plan.state ≠ .compiled ∧ s.plan.state ≠ .inService) .refusedState,
           refusesFor (bs.find? fun b => !((s.body b).any fun x => x.group.isNone)) .refusedState 0x02,
           refusesFor ((s.cornersOf bs).find? fun p =>
               (s.point p).life != .planned || (s.point p).health != .live
                 || (s.jog.active.any fun j => j.point == p)) .refusedState 0x01,
           -- each listed body in ascending position: its leading joint, then its trailing one
           ((s.bodiesInOrder.filter fun y => bs.contains y.1).findSome? fun y =>
               let lead := (s.leadingNeighbour y.2).map (·.1)
               if y.2.joint = .closed ∧ (∀ c ∈ lead, c ∉ bs) then some [0x08, byte y.1.val, encId lead]
               else (s.trailingNeighbour y.2).bind fun z =>
                 if z.2.joint = .closed ∧ z.1 ∉ bs then some [0x08, byte z.1.val, byte y.1.val] else none).map
             fun payload => (.refusedState, payload)])
    ∧ (∀ (s : State) (g : GroupId) (bs : List BodyId),
        (s.form g bs).group g =
          { Group.free with
            state := .formed, members := (s.bodiesInOrder.filter fun y => bs.contains y.1).map (·.1) }
        ∧ (∀ b, (s.form g bs).body b =
            if b ∈ bs then (s.body b).map fun x => { x with group := some g } else s.body b)
        ∧ (∀ p, (s.form g bs).point p =
            if p ∈ s.cornersOf bs then
              { s.point p with group := some g, base := none, target := none, arrived := false, followHeld := false }
            else s.point p)
        ∧ (∀ h, h ≠ g → (s.form g bs).group h = s.group h)
        ∧ s.form g bs = { s with
            points := (s.form g bs).points, bodies := (s.form g bs).bodies, groups := (s.form g bs).groups })
    ∧ (∀ (s : State) (o : FormGroupOps), s.Working →
        ¬ (o.group < 4 ∧ 1 ≤ o.bodies.length ∧ o.bodies.length ≤ 12 ∧ (∀ n ∈ o.bodies, n < 12) ∧ o.bodies.Nodup) →
        exec (.formGroup (.takes o)) s = .next (s.answered s 0x40 .refusedRange []))
    ∧ (∀ (s : State) (bs : List BodyId),
        (s.cornersOf bs).Pairwise (· < ·) ∧ (∀ g, s.members g = s.cornersOf (s.group g).members)
        ∧ ∀ p, p ∈ s.cornersOf bs ↔ ∃ b ∈ bs, ∃ x, s.body b = some x ∧ p ∈ x.corners)
    ∧ (∀ (s : State) (g : GroupId), s.Working → s.plan.state ≠ .compiling →
      ((s.group g).state = .formed ∨ (s.group g).state = .arrived) →
      exec (.disband (.takes g.val)) s = .next (s.answered (s.disband g).settle 0x46 .done [])
      ∧ (s.disband g).group g = Group.free
      ∧ (∀ b, (s.disband g).body b =
          if b ∈ (s.group g).members then (s.body b).map fun x => { x with group := none } else s.body b)
      ∧ (∀ p, (s.disband g).point p =
          if p ∈ s.members g then
            { s.point p with group := none, base := none, target := none, arrived := false, followHeld := false }
          else s.point p)
      ∧ (∀ h, h ≠ g → (s.disband g).group h = s.group h)
      ∧ s.disband g = { s with
          points := (s.disband g).points, bodies := (s.disband g).bodies, groups := (s.disband g).groups })
    ∧ (∀ (s : State) (n : Nat), s.Working → 4 ≤ n →
        exec (.disband (.takes n)) s = .next (s.answered s 0x46 .refusedRange []))
    ∧ ∀ (s : State) (g : GroupId), s.Working →
        s.RefusesInOrder (.disband (.takes g.val)) 0x46
          [refusesIf (s.plan.state = .compiling) .busy,
           refusesIf ((s.group g).state ≠ .formed ∧ (s.group g).state ≠ .arrived) .refusedState]

/-- An accepted START writes the run, takes the base heights from the reported heights, starts stage 1, and puts a
COMPILED plan in service (R54, R116 to R119). Its checks, in the order of R116 and R117, each refusal with its status and
payload; the range in which a target must lie (R119). -/
def Obligations.StartResult : Prop :=
  (∀ (s : State) (g : GroupId) (travel : Int) (step gap : Nat), s.Working →
    travel ≠ 0 → travel.natAbs ≤ 25000 → 10 ≤ step → step ≤ s.limits.maxStep → gap ≤ 64 →
    (s.plan.state ≠ .compiling →
      ((s.group g).state = .formed ∨ (s.group g).state = .arrived) → s.stop = false → s.NoneAsserted .pitGate →
      (∀ p ∈ s.members g, (s.point p).runOk s.limits.liftCeiling travel step = true
        ∧ (s.point p).health = .live ∧ (s.point p).inhibit = false ∧ (s.point p).conditions = 0
        ∧ ∀ c ∈ (s.point p).index, ∀ x, s.constraint c = some x → x.state ≠ .breach ∧ x.state ≠ .blind) →
      (∀ b ∈ (s.group g).members, s.skew.at b = false) →
      let t := s.beginRun g ⟨g.val, travel, step, gap⟩
      let first := min step travel.natAbs
      exec (.start (.takes ⟨g.val, travel, step, gap⟩)) s = .next (s.answered t.settle 0x41 .done [])
      ∧ t.group g =
          { s.group g with
            state := .staging
            run := some ⟨travel, step, gap, (travel.natAbs + (step - 1)) / step, 0, 0⟩
            timer := some (s.limits.stageTimeout * 1000000) }
      ∧ (∀ p, t.point p =
          if p ∈ s.members g then
            { s.point p with
              base := (s.point p).height
              target := some (((s.point p).height.getD 0 : Int) + travel.sign * (first : Int)).toNat
              arrived := false
              followHeld := false }
          else s.point p)
      ∧ t.plan.state = (if s.plan.state = .compiled then .inService else s.plan.state)
      ∧ (∀ h, h ≠ g → t.group h = s.group h)
      ∧ t = { s with points := t.points, groups := t.groups, plan := { s.plan with state := t.plan.state } })
    ∧ s.RefusesInOrder (.start (.takes ⟨g.val, travel, step, gap⟩)) 0x41
        [refusesFor ((s.members g).find? fun p => !(s.point p).runOk s.limits.liftCeiling travel step)
           .refusedRange 0x01,
         refusesIf (s.plan.state = .compiling) .busy,
         refusesIf ((s.group g).state ≠ .formed ∧ (s.group g).state ≠ .arrived) .refusedState
           [0x06, byte (s.group g).state.code],
         refusesIf (s.stop = true) .refusedState,
         refusesFor s.openGate .refusedState 0x05,
         refusesFor ((s.members g).find? fun p =>
             (s.point p).health != .live || (s.point p).inhibit || (s.point p).conditions != 0) .refusedState 0x01,
         refusesFor (lowest fun c => (s.members g).any (fun p => (s.point p).index.contains c)
             && (s.constraint c).any fun x => x.state == .breach || x.state == .blind) .refusedState 0x03,
         refusesFor ((s.group g).members.find? fun b => s.skew.at b) .refusedState 0x02])
  ∧ (∀ (s : State) (o : StartOps), s.Working →
      ¬ (o.group < 4 ∧ o.travel ≠ 0 ∧ o.travel.natAbs ≤ 25000 ∧ 10 ≤ o.step ∧ o.step ≤ s.limits.maxStep ∧ o.gap ≤ 64) →
      exec (.start (.takes o)) s = .next (s.answered s 0x41 .refusedRange []))
  ∧ ∀ (x : Point) (ceiling : Nat) (t travel : Int) (step h : Nat),
      (x.targetOk ceiling t = true ↔
        ∃ r k, x.rest = some r ∧ x.ratedStroke = some k ∧ (r : Int) ≤ t ∧ t ≤ ((r + min k ceiling : Nat) : Int))
      ∧ (x.height = some h →
          (x.runOk ceiling travel step = true ↔
            x.targetOk ceiling ((h : Int) + travel.sign * ((min step travel.natAbs : Nat) : Int)) = true
              ∧ x.targetOk ceiling ((h : Int) + travel) = true))

/-- A stage start writes targets, clears arrived and follow-held and loads the timer (R119); a stage completion counts
the stage, sets STAGE, and takes the group to ARRIVED, to GAP, or into its next stage (R124). -/
def Obligations.StagesStartAndComplete : Prop :=
  (∀ (s : State) (g : GroupId) (r : Run), (s.group g).run = some r →
      let t := s.startStage g
      t.group g = { s.group g with state := .staging, timer := some (s.limits.stageTimeout * 1000000) }
      ∧ (∀ p, t.point p =
          if p ∈ s.members g then
            { s.point p with
              target := some (((s.point p).base.getD 0 : Int)
                + r.travel.sign * (min (r.completed + r.step) r.travel.natAbs : Nat)).toNat
              arrived := false
              followHeld := false }
          else s.point p)
      ∧ (∀ h, h ≠ g → t.group h = s.group h)
      ∧ t = { s with points := t.points, groups := t.groups })
    ∧ ∀ (s : State) (g : GroupId) (r : Run), (s.group g).run = some r →
        let r1 : Run := { r with done := r.done + 1, completed := min (r.completed + r.step) r.travel.natAbs }
        let x : Group := { s.group g with run := some r1, timer := none }
        (r1.done = r.count → s.completeStage g =
          ((s.setGroup g { x with state := .arrived }).raiseFlag (.stage g)).raiseFlag (.arrived g))
        ∧ (r1.done ≠ r.count → r.gap ≠ 0 → r1.done % r.gap = 0 → s.completeStage g =
            ((s.setGroup g { x with state := .gap }).raiseFlag (.stage g)).raiseFlag (.gap g))
        ∧ (r1.done ≠ r.count → (r.gap = 0 ∨ r1.done % r.gap ≠ 0) →
            s.completeStage g = ((s.setGroup g x).raiseFlag (.stage g)).startStage g)

/-- Arrival and follow holding (R121, R122): a report that shows progress within the arrival band of the target sets
arrived and, but in a held stage, clears follow-held; an evaluation holds a non-arrived member whose excess exceeds the follow window and
releases one whose excess is at most half of it, clears the flag of an arrived member, and leaves every other point as it
was. What the group engine does with a
stored report, by the state of the point's group (R123; that in a held stage an arriving member keeps its follow-held flag
is the model's reading of R123 against R121, log 31). -/
def Obligations.ArrivalAndFollowHolding : Prop :=
  (∀ (s : State) (g : GroupId) (p : PointId) (r : Run), (s.group g).run = some r →
      ((min (r.completed + r.step) r.travel.natAbs : Nat) - (s.limits.arrivalBand : Int)
          ≤ (s.point p).progress r.travel →
        s.judgeArrival g p = s.setPoint p { s.point p with arrived := true, followHeld := false }
        ∧ s.recordArrival g p = s.setPoint p { s.point p with arrived := true })
      ∧ (¬ (min (r.completed + r.step) r.travel.natAbs : Nat) - (s.limits.arrivalBand : Int)
          ≤ (s.point p).progress r.travel → s.judgeArrival g p = s ∧ s.recordArrival g p = s))
    ∧ (∀ (s : State) (g : GroupId), s.evalFollow g = { s with points := (s.evalFollow g).points }
        ∧ ((s.group g).run = none → s.evalFollow g = s) ∧ ∀ p, p ∉ s.members g → (s.evalFollow g).point p = s.point p)
    ∧ (∀ (s : State) (g : GroupId) (r : Run), (s.group g).run = some r → ∀ p ∈ s.members g,
        ((s.point p).arrived = true → (s.evalFollow g).point p = { s.point p with followHeld := false })
        ∧ ∀ least : Int, (s.point p).arrived = false →
          (∀ q ∈ s.members g, (s.point q).arrived = false → least ≤ (s.point q).progress r.travel) →
          (∃ q ∈ s.members g, (s.point q).arrived = false ∧ (s.point q).progress r.travel = least) →
          let excess := (s.point p).progress r.travel - least
          (s.evalFollow g).point p =
            if (s.limits.followWindow : Int) < excess then { s.point p with followHeld := true }
            else if 2 * excess ≤ (s.limits.followWindow : Int) then { s.point p with followHeld := false }
            else s.point p)
    ∧ (∀ (x : Point) (travel : Int) (h b : Nat), x.height = some h → x.base = some b →
        x.progress travel = ((h : Int) - (b : Int)) * travel.sign)
    ∧ ∀ (s : State) (p : PointId),
        ((s.point p).group = none → s.groupTakes p = s)
        ∧ ∀ g, (s.point p).group = some g →
          ((s.group g).state = .staging →
            let s1 := (s.judgeArrival g p).evalFollow g
            ((∀ q ∈ s1.members g, (s1.point q).arrived = true) → s.groupTakes p = s1.completeStage g)
            ∧ (¬ (∀ q ∈ s1.members g, (s1.point q).arrived = true) → s.groupTakes p = s1))
          ∧ ((s.group g).state = .holding → (s.group g).heldFrom = some .staging →
              s.groupTakes p = s.recordArrival g p)
          ∧ ((s.group g).state = .holding → (s.group g).heldFrom ≠ some .staging → s.groupTakes p = s)
          ∧ ((s.group g).state ≠ .staging → (s.group g).state ≠ .holding → s.groupTakes p = s)

/-- In GAP an accepted CONTINUE starts the next stage (R125), and an accepted AMEND-TRAVEL rewrites the run and takes
the group to ARRIVED where no stage is left (R126, R127). Their refusals, in the order of their rules. -/
def Obligations.GapRequests : Prop :=
  (∀ (s : State) (g : GroupId), s.Working → s.plan.state ≠ .compiling → (s.group g).state = .gap →
      s.stop = false → s.NoneAsserted .pitGate →
      exec (.continue_ (.takes g.val)) s = .next (s.answered (s.startStage g).settle 0x42 .done []))
    ∧ (∀ (s : State) (n : Nat), s.Working → 4 ≤ n →
        exec (.continue_ (.takes n)) s = .next (s.answered s 0x42 .refusedRange []))
    ∧ (∀ (s : State) (g : GroupId), s.Working →
        s.RefusesInOrder (.continue_ (.takes g.val)) 0x42
          [refusesIf (s.plan.state = .compiling) .busy,
           refusesIf ((s.group g).state ≠ .gap ∨ s.stop = true
             ∨ ∃ l, (s.line l).function = .pitGate ∧ (s.line l).asserted = true) .refusedState])
    ∧ (∀ (s : State) (g : GroupId) (r : Run) (travel : Int) (step : Option Nat), s.Working →
        s.plan.state ≠ .compiling → (s.group g).state = .gap → (s.group g).run = some r →
        travel ≠ 0 → travel.natAbs ≤ 25000 → (∀ n, step = some n → 10 ≤ n ∧ n ≤ s.limits.maxStep) →
        travel.sign = r.travel.sign → r.completed ≤ travel.natAbs →
        (∀ p ∈ s.members g, ∀ b, (s.point p).base = some b →
          (s.point p).targetOk s.limits.liftCeiling ((b : Int) + travel) = true) →
        let held := step.getD r.step
        let r1 : Run :=
          { r with
            travel := travel
            step := held
            count := r.done + (travel.natAbs - r.completed + (held - 1)) / held }
        exec (.amendTravel (.takes ⟨g.val, travel, step⟩)) s =
          .next (s.answered
            (if r1.count = r.done then
              ((s.setGroup g { s.group g with run := some r1, state := .arrived }).raiseFlag (.arrived g)).settle
             else (s.setGroup g { s.group g with run := some r1 }).settle) 0x43 .done []))
    ∧ (∀ (s : State) (o : AmendTravelOps), s.Working →
        ¬ (o.group < 4 ∧ o.travel ≠ 0 ∧ o.travel.natAbs ≤ 25000
          ∧ ∀ n, o.step = some n → 10 ≤ n ∧ n ≤ s.limits.maxStep) →
        exec (.amendTravel (.takes o)) s = .next (s.answered s 0x43 .refusedRange []))
    ∧ ∀ (s : State) (g : GroupId) (travel : Int) (step : Option Nat), s.Working →
        travel ≠ 0 → travel.natAbs ≤ 25000 → (∀ n, step = some n → 10 ≤ n ∧ n ≤ s.limits.maxStep) →
        s.RefusesInOrder (.amendTravel (.takes ⟨g.val, travel, step⟩)) 0x43
          [refusesIf (∃ r ∈ (s.group g).run, travel.sign ≠ r.travel.sign ∨ travel.natAbs < r.completed) .refusedRange,
           refusesFor ((s.members g).find? fun p =>
               (s.point p).base.any fun (b : Nat) => !(s.point p).targetOk s.limits.liftCeiling ((b : Int) + travel))
             .refusedRange 0x01,
           refusesIf (s.plan.state = .compiling) .busy,
           refusesIf ((s.group g).state = .staging ∨ (s.group g).state = .holding) .busy,
           refusesIf ((s.group g).state ≠ .gap) .refusedState]

/-- HOLD (R130), and the claim it makes (R129). -/
def Obligations.HoldClaims : Prop :=
  (∀ (s : State) (n : Nat), s.Working → 4 ≤ n →
      exec (.hold (.takes n)) s = .next (s.answered s 0x44 .refusedRange []))
    ∧ (∀ (s : State) (g : GroupId), s.Working → s.plan.state = .compiling →
        exec (.hold (.takes g.val)) s = .next (s.answered s 0x44 .busy []))
    ∧ (∀ (s : State) (g : GroupId), s.Working → s.plan.state ≠ .compiling →
        ((s.group g).state = .free ∨ (s.group g).state = .formed ∨ (s.group g).state = .arrived) →
        exec (.hold (.takes g.val)) s = .next (s.answered s 0x44 .refusedState []))
    ∧ (∀ (s : State) (g : GroupId), s.Working → s.plan.state ≠ .compiling →
        ((s.group g).state = .staging ∨ (s.group g).state = .gap ∨ (s.group g).state = .holding) →
        exec (.hold (.takes g.val)) s = .next (s.answered (s.claim g .host).settle 0x44 .done []))
    ∧ (∀ (s : State) (g : GroupId), s.Working → s.Settled → s.plan.state ≠ .compiling →
        (s.group g).state = .holding → (s.group g).hasCause .host = true →
        exec (.hold (.takes g.val)) s = .next (s.answered s 0x44 .done []))
    ∧ ∀ (s : State) (g : GroupId) (c : HoldCause),
        ((s.group g).state = .staging → s.claim g c =
          (s.setGroup g { s.group g with
            state := .holding, heldFrom := some .staging, causes := insertBit (s.group g).causes c.bit }).raiseFlag
            (.held g))
        ∧ ((s.group g).state = .gap → s.claim g c =
          (s.setGroup g { s.group g with
            state := .holding, heldFrom := some .gap, causes := insertBit (s.group g).causes c.bit }).raiseFlag
            (.held g))
        ∧ ((s.group g).state = .holding → s.claim g c =
          s.setGroup g { s.group g with causes := insertBit (s.group g).causes c.bit })
        ∧ (((s.group g).state = .free ∨ (s.group g).state = .formed ∨ (s.group g).state = .arrived) →
            s.claim g c = s)

/-- RESUME (R131, R132): where every cause is removable the group returns to the state it was held from, with a fresh
timer and the stage completed where every member has arrived; otherwise it is refused with the causes that stand. When
each cause is removable, cause by cause (R131). -/
def Obligations.ResumeResult : Prop :=
  (∀ (s : State) (g : GroupId), s.Working → s.plan.state ≠ .compiling → (s.group g).state = .holding →
      (∀ c, (s.group g).hasCause c = true → s.removable g c = true) →
      exec (.resume (.takes g.val)) s = .next (s.answered (s.resumeFrom g).settle 0x45 .done []))
    ∧ (∀ (s : State) (g : GroupId), s.Working → s.plan.state ≠ .compiling → (s.group g).state = .holding →
        (∃ c, (s.group g).hasCause c = true ∧ s.removable g c = false) →
        ∃ m : BitVec 13, exec (.resume (.takes g.val)) s =
            .next (s.answered s 0x45 .refusedState [0x07, byte (m.toNat / 256), byte m.toNat])
          ∧ ∀ c : HoldCause, m.getLsbD c.bit = ((s.group g).hasCause c && !s.removable g c))
    ∧ (∀ (s : State) (g : GroupId),
        let indexed (c : ConstraintId) := ∃ p ∈ s.members g, c ∈ (s.point p).index
        s.removable g .host = true ∧ s.removable g .stall = true
        ∧ (s.removable g .line = true ↔ ∀ l, (s.line l).function = .holdButton →
            ((s.line l).parameter = .group g ∨ (s.line l).parameter = .all) → (s.line l).asserted = false)
        ∧ (s.removable g .stop = true ↔ s.stop = false)
        ∧ (s.removable g .gate = true ↔ s.NoneAsserted .pitGate)
        ∧ (s.removable g .breach = true ↔ ∀ c x, indexed c → s.constraint c = some x → x.state ≠ .breach)
        ∧ (s.removable g .blind = true ↔ ∀ c x, indexed c → s.constraint c = some x → x.state ≠ .blind)
        ∧ (∀ k : Condition, s.removable g k.cause = true ↔ ∀ p ∈ s.members g, (s.point p).hasCondition k = false)
        ∧ (s.removable g .skew = true ↔ ∀ b ∈ (s.group g).members, s.skew.at b = false)
        ∧ (s.removable g .lost = true ↔ ∀ p ∈ s.members g, (s.point p).health = .live))
    ∧ (∀ (s : State) (n : Nat), s.Working → 4 ≤ n →
        exec (.resume (.takes n)) s = .next (s.answered s 0x45 .refusedRange []))
    ∧ (∀ (s : State) (g : GroupId), s.Working →
        s.RefusesInOrder (.resume (.takes g.val)) 0x45
          [refusesIf (s.plan.state = .compiling) .busy, refusesIf ((s.group g).state ≠ .holding) .refusedState])
    ∧ (∀ (s : State) (g : GroupId), (s.group g).heldFrom = some .gap →
        s.resumeFrom g =
          s.setGroup g { s.group g with state := .gap, heldFrom := none, causes := 0, timer := none })
    ∧ ∀ (s : State) (g : GroupId), (s.group g).heldFrom = some .staging →
        let s1 := (s.setGroup g { s.group g with
          state := .staging, heldFrom := none, causes := 0
          timer := some (s.limits.stageTimeout * 1000000) }).evalFollow g
        ((∃ p ∈ s.members g, (s.point p).arrived = false) → s.resumeFrom g = s1)
        ∧ ((∀ p ∈ s.members g, (s.point p).arrived = true) → s.resumeFrom g = s1.completeStage g)

/-- The stage timer's expiry leaves the timer at zero and makes a STALL claim (R128); the jog timer's expiry ends the
jog with outcome STALL (R148, R149). That an expiry command is the expiry, whatever time is left, is the model's choice
(log 4). -/
def Obligations.TimersExpire : Prop :=
  (∀ (s : State) (g : GroupId), s.Working → (s.group g).state = .staging → (s.group g).timer.isSome →
      exec (.stageTimerExpiry g) s =
        .next ((s.setGroup g { s.group g with
          state := .holding, heldFrom := some .staging, timer := some 0
          causes := insertBit (s.group g).causes (HoldCause.bit .stall) }).raiseFlag (.held g)).settle)
    ∧ ∀ (s : State) (j : ActiveJog), s.Working → s.jog.active = some j →
        exec .jogTimerExpiry s =
          .next (({ s with jog := ⟨none, .stall, some j.point⟩ }.setPoint j.point
            { s.point j.point with target := none }).raiseFlag .jog).settle

/-! ### The permit unit (chapter 7) -/

/-- An accepted JOG makes the slot ACTIVE with the point's jog target, start height and timer, and puts a COMPILED
plan in service (R54, R145 to R147). Its checks, in the order of R145 and R146, each refusal with its status and
payload. -/
def Obligations.JogResult : Prop :=
  (∀ (s : State) (p : PointId) (d : Int), s.Working → d ≠ 0 → d.natAbs ≤ s.limits.maxStep →
    let x := s.point p
    (∀ h : Nat, s.plan.state ≠ .compiling → s.jog.active = none → x.life = .planned → x.health = .live →
      x.height = some h → x.targetOk s.limits.liftCeiling ((h : Int) + d) = true →
      x.group = none → x.inhibit = false → x.conditions = 0 → s.stop = false → s.NoneAsserted .pitGate →
      (∀ c ∈ x.index, ∀ y, s.constraint c = some y → y.state ≠ .warn ∧ y.state ≠ .breach ∧ y.state ≠ .blind) →
      exec (.jog (.takes ⟨p.val, d⟩)) s =
        .next (s.answered
          ({ s with
              jog := { s.jog with active := some ⟨p, d, h, s.limits.stageTimeout * 1000000⟩ }
              plan := { s.plan with
                state := if s.plan.state = PlanState.compiled then PlanState.inService else s.plan.state } }.setPoint p
            { x with target := some ((h : Int) + d).toNat }).settle 0x50 .done []))
    ∧ s.RefusesInOrder (.jog (.takes ⟨p.val, d⟩)) 0x50
        [refusesIf (∃ h ∈ x.height, x.rest.isSome ∧ x.ratedStroke.isSome
             ∧ x.targetOk s.limits.liftCeiling ((h : Int) + d) = false) .refusedRange [0x01, byte p.val],
         refusesIf (s.plan.state = .compiling) .busy,
         refusesFor (s.jog.active.map (·.point)) .busy 0x01,
         refusesIf (x.life ≠ .planned) .refusedState,
         refusesIf (x.health ≠ .live) .refusedState,
         refusesFor x.group .refusedState 0x04,
         refusesIf (x.inhibit = true) .refusedState,
         refusesIf (x.hasCondition .overload = true) .refusedState [0x09, 0x01],
         refusesIf (x.hasCondition .nodeStop = true) .refusedState [0x09, 0x02],
         refusesIf (x.hasCondition .nodeFault = true) .refusedState [0x09, 0x04],
         refusesIf (x.hasCondition .stroke = true) .refusedState [0x09, 0x08],
         refusesIf (s.stop = true) .refusedState,
         refusesFor s.openGate .refusedState 0x05,
         refusesFor (lowest fun c => x.index.contains c && (s.constraint c).any fun y =>
             y.state == .warn || y.state == .breach || y.state == .blind) .refusedState 0x03])
  ∧ ∀ (s : State) (o : JogOps), s.Working → ¬ (o.point < 48 ∧ o.distance ≠ 0 ∧ o.distance.natAbs ≤ s.limits.maxStep) →
      exec (.jog (.takes o)) s = .next (s.answered s 0x50 .refusedRange [])

/-- JOG-CANCEL (R151), and how a jog ends (R149): a notice about a point ends the jog of that point alone, and a stored
report of the jog point that shows its progress within the arrival band of the distance ends it with DONE (R148). -/
def Obligations.JogCancelEndsTheJog : Prop :=
  (∀ s : State, s.Working → s.plan.state = .compiling →
      exec (.jogCancel (.takes ())) s = .next (s.answered s 0x51 .busy []))
    ∧ (∀ s : State, s.Working → s.plan.state ≠ .compiling → s.jog.active = none →
        exec (.jogCancel (.takes ())) s = .next (s.answered s 0x51 .refusedState []))
    ∧ (∀ (s : State) (j : ActiveJog), s.Working → s.plan.state ≠ .compiling → s.jog.active = some j →
        exec (.jogCancel (.takes ())) s =
          .next (s.answered (s.endJog .cancelled).settle 0x51 .done [0x01, byte j.point.val])
        ∧ ((s.point j.point).group = none →
            ((s.endJog .cancelled).settle.point j.point).permit = .hold
              ∨ ((s.endJog .cancelled).settle.point j.point).permit = .none))
    ∧ (∀ (s : State) (o : JogOutcome), s.jog.active = none → s.endJog o = s)
    ∧ (∀ (s : State) (j : ActiveJog) (o : JogOutcome), s.jog.active = some j →
        s.endJog o =
          ({ s with jog := ⟨none, o, some j.point⟩ }.setPoint j.point
            { s.point j.point with target := none }).raiseFlag .jog
        ∧ ∀ p, s.jogNotice p o = if j.point = p then s.endJog o else s)
    ∧ ∀ (s : State) (p : PointId),
        (s.jog.active = none → s.jogTakes p = s)
        ∧ ∀ (j : ActiveJog) (h : Nat), s.jog.active = some j → (s.point j.point).height = some h →
          let arrived := (j.distance.natAbs : Int) - (s.limits.arrivalBand : Int)
            ≤ ((h : Int) - (j.start : Int)) * j.distance.sign
          (j.point = p → arrived → s.jogTakes p = s.endJog .done)
          ∧ (j.point ≠ p ∨ ¬ arrived → s.jogTakes p = s)

/-- STOP is accepted in every plan state, with the latch set or clear (R156), and the setting of the latch has the
effects of R155: STOP is claimed on every group, so that one in STAGING or GAP goes HOLDING, held from the state it was
in, with STOP among its causes and HELD set, one in HOLDING keeps its causes beside STOP, and any other is left (R129); an
ACTIVE jog ends with STOP and JOG set, an IDLE slot stays (R149); RUNNING and RESETTING engines set stop pending (R87); the
STOP flag is set, no flag is cleared, and every permit follows the set latch. -/
def Obligations.StopSetsTheLatch : Prop :=
  ∀ s : State, s.Working →
    exec (.stop (.takes ())) s = .next (s.answered s.setLatch.settle 0x52 .done [])
    ∧ s.setLatch.stop = true
    ∧ (∀ g, s.setLatch.group g =
        let x := s.group g
        let causes := insertBit x.causes (HoldCause.bit .stop)
        match x.state with
        | .staging => { x with state := .holding, heldFrom := some .staging, causes := causes }
        | .gap => { x with state := .holding, heldFrom := some .gap, causes := causes }
        | .holding => { x with causes := causes }
        | _ => x)
    ∧ (∀ j, s.jog.active = some j → s.setLatch.jog = ⟨none, .stop, some j.point⟩)
    ∧ (s.jog.active = none → s.setLatch.jog = s.jog)
    ∧ (∀ l, s.setLatch.engine l =
        if (s.engine l).link = .idle then s.engine l else { s.engine l with stopPending := true })
    ∧ (∀ f, s.setLatch.attention.isSet f = true ↔
        s.attention.isSet f = true ∨ f = .stop ∨ (f = .jog ∧ s.jog.active.isSome)
          ∨ ∃ g, f = .held g ∧ ((s.group g).state = .staging ∨ (s.group g).state = .gap))
    ∧ s.setLatch.attention.enables = s.attention.enables
    ∧ s.setLatch.settle.PermitsFollow
    ∧ (∀ p, s.setLatch.point p =
        if ∃ j ∈ s.jog.active, j.point = p then { s.point p with target := none } else s.point p)
    ∧ s.setLatch = { s with
        stop := true, points := s.setLatch.points, groups := s.setLatch.groups, links := s.setLatch.links
        jog := s.setLatch.jog, attention := s.setLatch.attention }

/-- CLEAR-STOP clears the latch where no SHED_STOP line is asserted, and is refused naming the lowest such line
otherwise (R157); it removes no hold cause and starts nothing. -/
def Obligations.ClearStopResult : Prop :=
  (∀ s : State, s.Working → s.NoneAsserted .shedStop →
      exec (.clearStop (.takes ())) s = .next (s.answered { s with stop := false }.settle 0x53 .done []))
    ∧ ∀ (s : State) (l : LineId), s.Working → (s.line l).function = .shedStop → (s.line l).asserted = true →
        (∀ m : LineId, m.val < l.val → ¬ ((s.line m).function = .shedStop ∧ (s.line m).asserted = true)) →
        exec (.clearStop (.takes ())) s = .next (s.answered s 0x53 .refusedState [0x05, byte l.val])

/-! ### Lines (chapter 8) -/

/-- SET-LINE (R168, R169) writes the line's record and takes an assertion of a protective function found asserted; one
that gives the values held changes nothing; in service a SHED_STOP line keeps its function and polarity. An input line
that stays an input keeps its debounced level and timer, but that SHED_STOP found at its active raw level takes that level
at once. An output line's level becomes inactive (for a change of polarity alone the model's reading of R169 against R170,
log 27). SET-OUTPUT writes the output level of a GENERAL_OUT line (R170). Where a function may stand and which parameter
it takes, and the selector number of each (R159). -/
def Obligations.LineRequests : Prop :=
  (∀ (s : State) (l : LineId) (f : LineFunction) (par : LineParameter) (pol : Polarity), s.Working →
      f.allowedOn l = true → f.takesParameter par = true →
      let x := s.line l
      let y := x.rewrite (s.pins.at l) f par pol
      let locked := s.plan.state = .inService ∧ x.function = .shedStop ∧ (f ≠ .shedStop ∨ pol ≠ x.polarity)
      (locked → exec (.setLine (.takes ⟨l.val, f.code, par, pol⟩)) s =
        .next (s.answered s 0x60 .refusedLocked [0x05, byte l.val]))
      ∧ (¬ locked → x.function = f → x.parameter = par → x.polarity = pol →
        exec (.setLine (.takes ⟨l.val, f.code, par, pol⟩)) s = .next (s.answered s 0x60 .done []))
      ∧ (¬ locked → ¬ (x.function = f ∧ x.parameter = par ∧ x.polarity = pol) →
        exec (.setLine (.takes ⟨l.val, f.code, par, pol⟩)) s =
          .next (s.answered
            (if (f = .shedStop ∨ f = .pitGate ∨ f = .holdButton) ∧ y.asserted = true then
              ((s.setLine l y).takeAssertion l).settle
             else (s.setLine l y).settle) 0x60 .done []))
      ∧ y.function = f ∧ y.parameter = par ∧ y.polarity = pol ∧ y.drive = x.drive
      ∧ (f.isInput = false → y.debounced = none ∧ y.timer = none
          ∧ y.output = if f = .generalOut then some false else none)
      ∧ (f.isInput = true → x.function.isInput = false →
          y.debounced = some (s.pins.at l) ∧ y.timer = none ∧ y.output = none)
      ∧ (f = .shedStop → x.function.isInput = true → s.pins.at l = Polarity.active pol →
          y.debounced = some (s.pins.at l) ∧ y.timer = none ∧ y.output = x.output)
      ∧ (f.isInput = true → x.function.isInput = true →
          ¬ (f = .shedStop ∧ s.pins.at l = Polarity.active pol) →
          y.debounced = x.debounced ∧ y.timer = x.timer ∧ y.output = x.output))
    ∧ (∀ (s : State) (o : SetLineOps), s.Working →
        ¬ (o.line < 12 ∧ ∃ (l : LineId) (f : LineFunction), l.val = o.line ∧ f.code = o.selector
          ∧ f.allowedOn l = true ∧ f.takesParameter o.parameter = true) →
        exec (.setLine (.takes o)) s = .next (s.answered s 0x60 .refusedRange []))
    ∧ [LineFunction.generalIn, .generalOut, .shedStop, .pitGate, .holdButton, .continueButton, .beacon, .faultLamp,
        .groupMoving].map LineFunction.code = [0, 1, 2, 3, 4, 5, 6, 7, 8]
    ∧ (∀ (f : LineFunction) (l : LineId) (par : LineParameter),
        let outputs := [LineFunction.generalOut, .beacon, .faultLamp, .groupMoving]
        (f.isInput = true ↔ f ∉ outputs)
        ∧ (f.allowedOn l = true ↔ if f = .shedStop then 8 ≤ l.val else if f ∈ outputs then l.val < 8 else True)
        ∧ (f.takesParameter par = true ↔
            if f = .holdButton then par ≠ .absent
            else if f = .continueButton ∨ f = .groupMoving then ∃ g, par = .group g
            else par = .absent))
    ∧ (∀ (s : State) (l : LineId) (level : Bool), s.Working → (s.line l).function = .generalOut →
        exec (.setOutput (.takes ⟨l.val, level⟩)) s =
          .next (s.answered (s.setLine l { s.line l with output := some level }).settle 0x61 .done []))
    ∧ (∀ (s : State) (l : LineId) (level : Bool), s.Working → (s.line l).function ≠ .generalOut →
        exec (.setOutput (.takes ⟨l.val, level⟩)) s =
          .next (s.answered s 0x61 .refusedState [0x0A, byte (s.line l).function.code]))
    ∧ ∀ (s : State) (o : SetOutputOps), s.Working → 12 ≤ o.line →
        exec (.setOutput (.takes o)) s = .next (s.answered s 0x61 .refusedRange [])

/-- A change of raw level (R161): it loads the debounce timer with 20 ms where the level now differs from the
debounced one, cancels the timer where it equals it again, and is taken at once as an assertion on a SHED_STOP line that
reaches its active level; on an output line it changes the raw level alone (the model's reading, log 26). The expiry of
the timer takes the raw level, whatever time is left (the model's choice, log 4). What an assertion and a release do, by
the line's function (R162 to R166): a CONTINUE_BUTTON starts the next stage of its group in GAP with the latch clear and no
PIT_GATE asserted, and has no effect otherwise (R165). -/
def Obligations.RawLevelsAndDebounce : Prop :=
  (∀ (s : State) (l : LineId) (v : Level), s.Working → s.pins.at l ≠ v →
      let x := s.line l
      let s1 : State := { s with pins := s.pins.put l v }
      (x.function.isInput = false → exec (.rawLevelChange l v) s = .next s1)
      ∧ (x.function.isInput = true → x.debounced = some v →
          exec (.rawLevelChange l v) s = .next (s1.setLine l { x with timer := none }))
      ∧ (x.function.isInput = true → x.debounced ≠ some v →
          ¬ (x.function = .shedStop ∧ v = Polarity.active x.polarity) →
          exec (.rawLevelChange l v) s = .next (s1.setLine l { x with timer := some 20000 }))
      ∧ (x.function = .shedStop → v = Polarity.active x.polarity → x.debounced ≠ some v →
          exec (.rawLevelChange l v) s =
            .next ((s1.setLine l { x with debounced := some v, timer := none }).setLatch).settle))
    ∧ (∀ (s : State) (l : LineId), s.Working → (s.line l).function.isInput = true → (s.line l).timer.isSome →
        let x := s.line l
        let y : Line := { x with debounced := some (s.pins.at l), timer := none }
        exec (.debounceTimerExpiry l) s =
          .next (if x.asserted = false ∧ y.asserted = true then ((s.setLine l y).takeAssertion l).settle
            else if x.asserted = true ∧ y.asserted = false then ((s.setLine l y).takeRelease l).settle
            else (s.setLine l y).settle))
    ∧ (∀ x : Line, x.asserted = true ↔
        x.function.isInput = true ∧ x.debounced = some (if x.polarity = .activeHigh then .high else .low))
    ∧ ∀ (s : State) (l : LineId),
        let mayContinue (g : GroupId) := (s.group g).state = .gap ∧ s.stop = false ∧ s.NoneAsserted .pitGate
        ((s.line l).function = .shedStop → s.takeAssertion l = s.setLatch)
        ∧ ((s.line l).function = .pitGate → s.takeAssertion l = s.claimAll .gate)
        ∧ (∀ g, (s.line l).function = .holdButton → (s.line l).parameter = .group g →
            s.takeAssertion l = s.claim g .line)
        ∧ ((s.line l).function = .holdButton → (s.line l).parameter = .all → s.takeAssertion l = s.claimAll .line)
        ∧ (∀ g, (s.line l).function = .continueButton → (s.line l).parameter = .group g →
            (mayContinue g → s.takeAssertion l = s.startStage g) ∧ (¬ mayContinue g → s.takeAssertion l = s))
        ∧ ((s.line l).function = .generalIn →
            s.takeAssertion l = s.raiseFlag .line ∧ s.takeRelease l = s.raiseFlag .line)
        ∧ ((s.line l).function ≠ .generalIn → s.takeRelease l = s)
        ∧ ∀ (c : HoldCause) (g : GroupId), (s.claimAll c).group g = (s.claim g c).group g

/-! ### Links (chapter 4) -/

/-- The choice of a slot (R77), of the roster entry next above the cycle position, or of the lowest where it is absent, and
what each sending does: a POLL carries the permit, the target and the latch as they stand (R78), a PROBE uses one attempt
of the head (R85), an ALL-STOP clears stop pending (R88); each opens a slot of 400 microseconds (R76). That a slot which
starts over an ALL-STOP in flight tells that its slot has ended is the model's reading (log 19). -/
def Obligations.SlotsSend : Prop :=
  (∀ e : Engine,
      let above (r : RosterEntry) := ∀ c, e.cycle = some c → c < r.node
      (e.stopPending = true → e.choose = .allStop)
      ∧ (∀ r, e.stopPending = false → e.nextPoll = some r → e.choose = .poll r)
      ∧ (∀ p rest, e.stopPending = false → e.nextPoll = none → e.queue = p :: rest → e.choose = .probe p)
      ∧ (∀ r rest, e.stopPending = false → e.nextPoll = none → e.queue = [] → e.cycle.isSome → e.roster = r :: rest →
          e.choose = .poll r)
      ∧ (e.stopPending = false → e.queue = [] → e.roster = [] → e.choose = .nothing)
      ∧ (e.roster.Pairwise (fun a b => a.node < b.node) →
          ∀ r, e.nextPoll = some r ↔ r ∈ e.roster ∧ above r ∧ ∀ q ∈ e.roster, above q → r.node ≤ q.node))
    ∧ (∀ (s : State) (l : LinkId) (r : RosterEntry), s.Working → (s.engine l).link = .running →
        ((s.engine l).exchange = none ∨ (s.engine l).exchange = some .allStop) → (s.engine l).choose = .poll r →
        exec (.poll l) s =
          .next (s.setEngine l { s.engine l with
            cycle := some r.node
            exchange := some (.poll r.point r.node (s.point r.point).permit (s.point r.point).target s.stop false)
            slotLeft := some 400 }))
    ∧ (∀ (s : State) (l : LinkId) (p : PointId) (a : Address), s.Working → (s.engine l).link = .running →
        ((s.engine l).exchange = none ∨ (s.engine l).exchange = some .allStop) → (s.engine l).choose = .probe p →
        (s.point p).address = some a →
        exec (.probe l) s =
          .next (s.setEngine l { s.engine l with
            cycle := none
            attempts := (s.engine l).attempts + 1
            exchange := some (.probe p a.node false)
            slotLeft := some 400 }))
    ∧ ∀ (s : State) (l : LinkId), s.Working → (s.engine l).link ≠ .resetting →
        ((s.engine l).exchange = none ∨ (s.engine l).exchange = some .allStop) → (s.engine l).stopPending = true →
        exec (.allStop l) s =
          .next (s.setEngine l { s.engine l with
            stopPending := false, exchange := some .allStop, slotLeft := some 400 })

/-- A good REPLY credited to its point stores the report and hands it to the monitor (EvaluationFollowsItsTable,
ConditionsAndSkewAppear), the group engine (ArrivalAndFollowHolding) and the permit unit (JogCancelEndsTheJog), in one of
the orders the spec leaves open (R79, R80; the free choice is the model's, log 7); at the second good answer in a
row a LOST point is LIVE again and FOUND is set (R82); an answer to be discarded stores nothing (R83). A REPLY with another
address or a value out of range, and an ANNOUNCE, are no answer in a poll slot (R76, R79; the command that carries them
ends the slot, log 21). -/
def Obligations.ReplyStoresTheReport : Prop :=
  (∀ (s : State) (l : LinkId) (p : PointId) (n : NodeAddr) (permit : Permit) (target : Option Nat) (stop : Bool)
      (f : ReplyFields), s.Working →
      (f.node = n.val → f.height ≤ 30000 → f.load ≤ 6000 →
        ((s.engine l).exchange = some (.poll p n permit target stop false) →
          ∃ t, exec (.reply l f) s = .next t
            ∧ t = (((s.endSlot l).storeReport l p f).handOn p permit).settle
            ∧ (t.point p).height = some f.height ∧ (t.point p).load = some f.load
            ∧ (t.point p).flags = f.flags.setWidth 4 ∧ (t.point p).missed = 0
            ∧ (t.engine l).exchange = none)
        ∧ ((s.engine l).exchange = some (.poll p n permit target stop true) →
            exec (.reply l f) s = .next (s.endSlot l)))
      ∧ (∀ d, (s.engine l).exchange = some (.poll p n permit target stop d) →
          ((f.node ≠ n.val ∨ 30000 < f.height ∨ 6000 < f.load) → exec (.reply l f) s = exec (.missedReply l) s)
          ∧ ∀ a, exec (.announce l a) s = exec (.missedReply l) s))
    ∧ (∀ (s : State) (p : PointId) (permit : Permit),
        let conditionsFirst (t : State) := ((t.judgeConditions p permit).evaluateIndex p).judgeSkewOf p
        let constraintsFirst (t : State) := ((t.evaluateIndex p).judgeConditions p permit).judgeSkewOf p
        let motion (t : State) := (t.groupTakes p).jogTakes p
        s.Judged (s.handOn p permit)
        ∧ ∃ u ∈ [motion (conditionsFirst s), motion (constraintsFirst s), conditionsFirst (motion s),
            constraintsFirst (motion s)], s.handOn p permit = { u with choices := (s.handOn p permit).choices })
    ∧ ∀ (s : State) (l : LinkId) (p : PointId) (f : ReplyFields),
        let x : Point :=
          { s.point p with height := some f.height, load := some f.load, flags := f.flags.setWidth 4, missed := 0 }
        ((s.point p).health ≠ .lost → s.storeReport l p f = s.setPoint p x)
        ∧ ((s.point p).health = .lost → (s.engine l).goodRunOf p = 0 →
            s.storeReport l p f = (s.setPoint p x).setGoodRun l p 1)
        ∧ ((s.point p).health = .lost → (s.engine l).goodRunOf p ≠ 0 →
            s.storeReport l p f = ((s.setPoint p { x with health := .live }).setGoodRun l p 0).raiseFlag .found)

/-- A poll slot that ends with no answer counts a missed reply; the third makes a LIVE point LOST, sets LOST, makes a LOST
claim on its group, ends a jog of the point, and in a COMPILED or IN_SERVICE plan evaluates its constraint index, so that
each constraint with the point as a term is BLIND, with the flag and the claims of entering it (R81, R97 to R99, R150; the
last two in an order the spec leaves open, the free choice the model's, log 7); a slot whose answer is to be discarded counts nothing (R83).
The end of a slot leaves no exchange and no slot time (R76), and an engine with nothing to poll or probe at rest, its cycle
position absent (the model's choice, log 30). -/
def Obligations.MissedRepliesLoseThePoint : Prop :=
  (∀ (s : State) (l : LinkId) (p : PointId) (n : NodeAddr) (permit : Permit) (target : Option Nat) (stop : Bool),
      s.Working →
      ((s.engine l).exchange = some (.poll p n permit target stop true) →
        exec (.missedReply l) s = .next (s.endSlot l))
      ∧ ((s.engine l).exchange = some (.poll p n permit target stop false) →
          ((s.point p).health = .live → (s.point p).missed < 2 →
            exec (.missedReply l) s =
              .next ((s.endSlot l).setPoint p { s.point p with missed := (s.point p).missed + 1 }).settle)
          ∧ ((s.point p).health = .live → 2 ≤ (s.point p).missed →
            exec (.missedReply l) s =
              .next (((s.endSlot l).setPoint p { s.point p with missed := 3 }).lose l p).settle)
          ∧ ((s.point p).health = .lost →
            exec (.missedReply l) s =
              .next (((s.endSlot l).setPoint p
                { s.point p with missed := min 3 ((s.point p).missed + 1) }).setGoodRun l p 0).settle)))
    ∧ (∀ (s : State) (l : LinkId), s.endSlot l =
        s.setEngine l { s.engine l with
          exchange := none
          slotLeft := none
          cycle := if (s.engine l).roster = [] ∧ (s.engine l).queue = [] then none else (s.engine l).cycle })
    ∧ (∀ (s : State) (l : LinkId) (p : PointId) (n : Nat), s.setGoodRun l p n =
        s.setEngine l { s.engine l with
          roster := (s.engine l).roster.map fun r => if r.point = p then { r with goodRun := n } else r })
    ∧ ∀ (s : State) (l : LinkId) (p : PointId),
        ((s.setPoint p { s.point p with health := .lost }).setGoodRun l p 0).Judged (s.lose l p)
        ∧ ((s.lose l p).point p).health = .lost
        ∧ (s.lose l p).attention.isSet .lost = true
        ∧ (∀ g, (s.point p).group = some g →
            (((s.group g).state = .staging ∨ (s.group g).state = .gap) →
              (s.lose l p).attention.isSet (.held g) = true
              ∧ (((s.group g).state = .staging → ((s.lose l p).group g).heldFrom = some .staging)
                ∧ ((s.group g).state = .gap → ((s.lose l p).group g).heldFrom = some .gap)))
            ∧ (((s.group g).state = .staging ∨ (s.group g).state = .gap ∨ (s.group g).state = .holding) →
              ((s.lose l p).group g).state = .holding ∧ ((s.lose l p).group g).hasCause .lost = true
              ∧ ∀ c, (s.group g).hasCause c = true → ((s.lose l p).group g).hasCause c = true))
        ∧ (∀ j, s.jog.active = some j → j.point = p → (s.lose l p).jog.active = none
            ∧ ((s.lose l p).jog.outcome = .lost ∨ (s.lose l p).jog.outcome = .limit))
        ∧ (let t := (((s.setPoint p { s.point p with health := .lost }).setGoodRun l p 0).raiseFlag .lost).claimOn
             (s.point p).group .lost
           ∃ u ∈ [(t.evaluateIndex p).jogNotice p .lost, (t.jogNotice p .lost).evaluateIndex p],
             s.lose l p = { u with choices := (s.lose l p).choices })
        ∧ (∀ c x v, (s.plan.state = .compiled ∨ s.plan.state = .inService) → c ∈ (s.point p).index →
            s.constraint c = some x → p ∈ x.terms.points → s.constraintValue x.terms = some v →
            (s.lose l p).constraint c = some { x with state := .blind, last := some v }
            ∧ (x.state ≠ .blind →
                (s.lose l p).attention.isSet .breach = true
                ∧ ∀ q ∈ x.terms.points, ∀ g, (s.point q).group = some g →
                    ((s.group g).state = .staging ∨ (s.group g).state = .gap ∨ (s.group g).state = .holding) →
                    ((s.lose l p).group g).state = .holding ∧ ((s.lose l p).group g).hasCause .blind = true))
        ∧ ∀ c, ((s.plan.state ≠ .compiled ∧ s.plan.state ≠ .inService) ∨ c ∉ (s.point p).index) →
            (s.lose l p).constraint c = s.constraint c

/-- A good ANNOUNCE credited to the probed point binds it: the record takes the announced values, the point leaves the
queue and joins the roster, head attempts becomes 0, and BIND is set (R26, R85, R86); one to be discarded binds nothing
(R83). A probe slot with no answer leaves the point at the head until its third attempt, which ends the probe with
NO_ANSWER, the rest of the record as it was (R27, R85). An ANNOUNCE with another address or a value out of range, and a
REPLY, are no answer in a probe slot (R76, R86; the command that carries them ends the slot, log 21). -/
def Obligations.ProbesEnd : Prop :=
  (∀ (s : State) (l : LinkId) (p : PointId) (n : NodeAddr) (f : AnnounceFields), s.Working →
      (f.node = n.val → f.height ≤ 30000 → 100 ≤ f.capacity → 500 ≤ f.stroke →
        ((s.engine l).exchange = some (.probe p n false) →
          ∃ t, exec (.announce l f) s = .next t
            ∧ t = ((s.endSlot l).bindAnnounced l p n f).settle
            ∧ (∃ m, t.point p =
                { s.point p with
                  life := .bound, health := .live, bindOutcome := .bound
                  ratedCapacity := some (min f.capacity 6000), ratedStroke := some (min f.stroke 25000)
                  nodeClass := some (f.nodeClass % 16), derated := some (min f.capacity 6000)
                  rest := some f.height, height := some f.height, missed := 0, permit := m })
            ∧ (t.engine l).queue = (s.engine l).queue.filter (fun q => q != p)
            ∧ ((s.engine l).queue.head? = some p → (t.engine l).attempts = 0)
            ∧ (∀ r, r ∈ (t.engine l).roster ↔ r = ⟨n, p, 0⟩ ∨ (r ∈ (s.engine l).roster ∧ r.point ≠ p))
            ∧ (t.engine l).exchange = none ∧ (t.engine l).link = (s.engine l).link
            ∧ t.attention.isSet .bind = true
            ∧ (∀ q, q ≠ p → ∃ m, t.point q = { s.point q with permit := m })
            ∧ (∀ m, m ≠ l → t.engine m = s.engine m)
            ∧ t = { s with points := t.points, links := t.links, lines := t.lines, attention := t.attention })
        ∧ ((s.engine l).exchange = some (.probe p n true) → exec (.announce l f) s = .next (s.endSlot l)))
      ∧ (∀ d, (s.engine l).exchange = some (.probe p n d) →
          ((f.node ≠ n.val ∨ 30000 < f.height ∨ f.capacity < 100 ∨ f.stroke < 500) →
            exec (.announce l f) s = exec (.probeUnanswered l) s)
          ∧ ∀ r, exec (.reply l r) s = exec (.probeUnanswered l) s))
    ∧ ∀ (s : State) (l : LinkId) (p : PointId) (n : NodeAddr), s.Working →
        ((s.engine l).exchange = some (.probe p n true) → exec (.probeUnanswered l) s = .next (s.endSlot l))
        ∧ ((s.engine l).exchange = some (.probe p n false) →
            ((s.engine l).attempts < 3 → exec (.probeUnanswered l) s = .next (s.endSlot l))
            ∧ (3 ≤ (s.engine l).attempts → ∃ t, exec (.probeUnanswered l) s = .next t
                ∧ t = ((s.endSlot l).noAnswer l p).settle
                ∧ (∃ m, t.point p = { s.point p with bindOutcome := .noAnswer, permit := m })
                ∧ (t.engine l).queue = (s.engine l).queue.filter (fun q => q != p)
                ∧ ((s.engine l).queue.head? = some p → (t.engine l).attempts = 0)
                ∧ (t.engine l).roster = (s.engine l).roster.filter (fun r => r.point != p)
                ∧ (t.engine l).exchange = none ∧ (t.engine l).link = (s.engine l).link
                ∧ t.attention.isSet .bind = true
                ∧ (∀ q, q ≠ p → ∃ m, t.point q = { s.point q with permit := m })
                ∧ (∀ m, m ≠ l → t.engine m = s.engine m)
                ∧ t = { s with points := t.points, links := t.links, lines := t.lines, attention := t.attention }))

/-- An accepted LINK-RESET unbinds every BOUND or PLANNED point of the link, makes every point of it PENDING, empties
its roster and queue, begins the break where no slot is in flight (one that is ends first, BreaksStartAndEnd), and makes
the plan fall where a PLANNED point was unbound: every other PLANNED point is BOUND, every index empty, every constraint
record IDLE with its last value absent (R31, R53, R90). The skew entry of a body that loses a corner becomes absent, every
other entry stands (R107); no attention flag is set, and groups, jog slot, latch and lines stand (R90). Its checks, in the
order of R89. -/
def Obligations.LinkResetResult : Prop :=
  (∀ (s : State) (l : LinkId), s.Working → s.PlanOpen →
    ((∃ p, (s.point p).onLink l = true ∧ (s.point p).life = .planned) → s.AllFree) →
    (s.engine l).link ≠ .resetting →
    let planned := ∃ p, (s.point p).onLink l = true ∧ (s.point p).life = .planned
    let t := s.resetLink l
    exec (.linkReset (.takes l.val)) s = .next (s.answered t.settle 0x70 .accepted [])
    ∧ t.engine l =
        { s.engine l with
          link := .resetting, roster := [], queue := [], attempts := 0, cycle := none
          exchange := (s.engine l).exchange.map Exchange.discard
          breakLeft := if (s.engine l).exchange = none then some 1000 else none }
    ∧ (∀ m, m ≠ l → t.engine m = s.engine m)
    ∧ (∀ p, (s.point p).onLink l = true → (t.point p).life = .draft ∧ (t.point p).bindOutcome = .pending)
    ∧ (∀ p, (s.point p).onLink l = true → ((s.point p).life = .bound ∨ (s.point p).life = .planned) →
        t.point p = { s.point p with
          life := .draft, health := .unbound, bindOutcome := .pending
          ratedCapacity := none, ratedStroke := none, nodeClass := none, derated := none
          rest := none, height := none, load := none, flags := 0, conditions := 0, missed := 0, permit := .none
          index := [] })
    ∧ (planned → s.plan.state = .compiled →
        t.plan = { s.plan with state := .drafted }
        ∧ (∀ p, (s.point p).onLink l = true → (s.point p).life = .draft →
            t.point p = { s.point p with bindOutcome := .pending, index := [] })
        ∧ (∀ p, (s.point p).onLink l = false → t.point p = { s.point p with
            life := if (s.point p).life = .planned then .bound else (s.point p).life
            index := [] })
        ∧ ∀ c, t.constraint c = (s.constraint c).map fun x => { x with state := .idle, last := none })
    ∧ (¬ planned →
        t.plan = s.plan ∧ t.constraints = s.constraints
        ∧ (∀ p, (s.point p).onLink l = true → (s.point p).life = .draft →
            t.point p = { s.point p with bindOutcome := .pending })
        ∧ ∀ p, (s.point p).onLink l = false → t.point p = s.point p)
    ∧ (∃ u : State,
        u = { s with points := u.points, links := u.links, plan := u.plan, constraints := u.constraints }
        ∧ u.Judged t)
    ∧ (s.SeatsMatch →
        let unbound (p : PointId) :=
          (s.point p).onLink l = true ∧ ((s.point p).life = .bound ∨ (s.point p).life = .planned)
        (∀ b x, s.body b = some x → (∃ p ∈ x.corners, unbound p) → t.skew.at b = false)
        ∧ (∀ b, (∀ x, s.body b = some x → ∀ p ∈ x.corners, ¬ unbound p) → t.skew.at b = s.skew.at b)
        ∧ t = { s with
            points := t.points, links := t.links, plan := t.plan, constraints := t.constraints, skew := t.skew }))
  ∧ (∀ (s : State) (n : Nat), s.Working → 4 ≤ n →
      exec (.linkReset (.takes n)) s = .next (s.answered s 0x70 .refusedRange []))
  ∧ ∀ (s : State) (l : LinkId), s.Working →
      s.RefusesInOrder (.linkReset (.takes l.val)) 0x70
        [refusesIf (s.plan.state = .compiling ∨ s.plan.state = .inService) .refusedState,
         refusesFor (if ∃ p, (s.point p).onLink l = true ∧ (s.point p).life = .planned then s.groupInUse else none)
           .refusedState 0x04,
         refusesIf ((s.engine l).link = .resetting) .refusedState]

/-- The break (R90, R91): it starts when the slot in flight at acceptance ends; when it runs out the link is RUNNING with
every DRAFT point of it queued in ascending node address, or IDLE where no point is on it. That BREAK_START tells the end
of the slot (log 19), and BREAK_END the end of the break, whatever time is left (log 4), are the model's choices. A frame
that is no slot's answer is ignored (R76). -/
def Obligations.BreaksStartAndEnd : Prop :=
  (∀ (s : State) (l : LinkId), s.Working → (s.engine l).link = .resetting → (s.engine l).breakLeft = none →
      exec (.breakStart l) s =
        .next (s.setEngine l { s.engine l with exchange := none, slotLeft := none, breakLeft := some 1000 }))
    ∧ (∀ (s : State) (l : LinkId), s.Working → (s.engine l).link = .resetting → (s.engine l).breakLeft.isSome →
        (∃ p, (s.point p).onLink l = true) → ∃ t, exec (.breakEnd l) s = .next t
          ∧ t.engine l =
              { s.engine l with
                link := .running, breakLeft := none, exchange := none, slotLeft := none
                queue := (ids 16).filterMap fun n =>
                  (ids 48).find? fun p => (s.point p).life == .draft && (s.point p).address == some ⟨l, n⟩ }
          ∧ (∀ p, t.point p =
              if (s.point p).onLink l = true ∧ (s.point p).life = .draft then
                { s.point p with bindOutcome := .pending }
              else s.point p)
          ∧ t = { s with points := t.points, links := t.links }
          ∧ ∀ m, m ≠ l → t.engine m = s.engine m)
    ∧ (∀ (s : State) (l : LinkId), s.Working → (s.engine l).link = .resetting → (s.engine l).breakLeft.isSome →
        (∀ p, (s.point p).onLink l = false) →
        exec (.breakEnd l) s =
          .next (s.setEngine l { s.engine l with
            link := .idle, breakLeft := none, exchange := none, slotLeft := none, queue := [] }))
    ∧ ∀ (s : State) (l : LinkId), exec (.ignoredFrame l) s = .next s

/-! ### Attention and limits (chapter 10) -/

/-- CLEAR-ATTENTION clears every flag whose bit is 1 and keeps the others, and STOP named while the latch is set is set
again (R193); ATTN follows (R192), and no other record changes. -/
def Obligations.ClearAttentionResult : Prop :=
  ∀ (s : State) (mask : BitVec 32), s.Working → s.Settled → ∃ t, exec (.clearAttention (.takes mask)) s = .next t
    ∧ (∀ f : Flag, t.attention.isSet f =
        ((s.attention.isSet f && !mask.getLsbD f.bit) || (decide (f = .stop) && s.stop && mask.getLsbD 0)))
    ∧ t.attention.enables = s.attention.enables ∧ t.AttnFollows
    ∧ t = s.answered { s with attention := t.attention } 0x81 .done []

/-- SET-ENABLES writes the enables whole, changes no flag, and drives ATTN (R194). -/
def Obligations.SetEnablesResult : Prop :=
  ∀ (s : State) (mask : BitVec 32), s.Working → s.Settled →
    exec (.setEnables (.takes mask)) s =
      .next (s.answered
        { s with attention :=
          ⟨s.attention.flags, mask.setWidth 26, s.attention.flags &&& mask.setWidth 26 != 0⟩ } 0x82 .done [])
    ∧ (mask.setWidth 26 = s.attention.enables →
        exec (.setEnables (.takes mask)) s = .next (s.answered s 0x82 .done []))

/-- SET-LIMITS (R197): a field out of its range is refused with REFUSED-RANGE, and that also with the lock set (the model's
reading of R197 by R176's stages, log 39); with the lock set the request is
REFUSED-LOCKED; in service it is REFUSED-STATE; otherwise every field is written and the permits follow the rest band;
one whose every field equals the value held changes nothing. -/
def Obligations.SetLimitsResult : Prop :=
  ∀ (s : State) (o : Limits), s.Working →
    let inRange := 100 ≤ o.liftCeiling ∧ o.liftCeiling ≤ 25000 ∧ 10 ≤ o.maxStep ∧ o.maxStep ≤ 500
      ∧ 5 ≤ o.followWindow ∧ o.followWindow ≤ 200 ∧ 1 ≤ o.arrivalBand ∧ o.arrivalBand ≤ 50
      ∧ 5 ≤ o.restBand ∧ o.restBand ≤ 100 ∧ 10 ≤ o.contactLoad ∧ o.contactLoad ≤ 500
      ∧ 5 ≤ o.jointLimit ∧ o.jointLimit ≤ 500 ∧ 50 ≤ o.warnPercent ∧ o.warnPercent ≤ 100
      ∧ 30 ≤ o.shareLimit ∧ o.shareLimit ≤ 90 ∧ 1 ≤ o.stageTimeout ∧ o.stageTimeout ≤ 255
    (¬ inRange → exec (.setLimits (.takes o)) s = .next (s.answered s 0x90 .refusedRange []))
    ∧ (inRange → s.limitsLock = true → exec (.setLimits (.takes o)) s = .next (s.answered s 0x90 .refusedLocked []))
    ∧ (inRange → s.limitsLock = false → s.plan.state = .inService →
        exec (.setLimits (.takes o)) s = .next (s.answered s 0x90 .refusedState []))
    ∧ (inRange → s.limitsLock = false → s.plan.state ≠ .inService →
        exec (.setLimits (.takes o)) s = .next (s.answered { s with limits := o }.settle 0x90 .done []))
    ∧ (inRange → s.limitsLock = false → s.plan.state ≠ .inService → s.Settled → o = s.limits →
        exec (.setLimits (.takes o)) s = .next (s.answered s 0x90 .done []))

/-- LOCK-LIMITS sets the lock in every plan state and changes nothing where it is set already; READ-LIMITS gives the ten
fields and the lock and changes no record; power-on clears the lock and an accepted PART-RESET leaves it (R198). -/
def Obligations.LockAndReadLimits : Prop :=
  (∀ s : State, s.Working →
      exec (.lockLimits (.takes ())) s = .next (s.answered { s with limitsLock := true } 0x91 .done []))
    ∧ (∀ s : State, s.Working →
        exec (.readLimits (.takes ())) s =
          .next (s.answered s 0x92 .done
            (be16 s.limits.liftCeiling ++ be16 s.limits.maxStep
              ++ [byte s.limits.followWindow, byte s.limits.arrivalBand, byte s.limits.restBand]
              ++ be16 s.limits.contactLoad ++ be16 s.limits.jointLimit
              ++ [byte s.limits.warnPercent, byte s.limits.shareLimit] ++ be16 s.limits.stageTimeout
              ++ [if s.limitsLock = true then 1 else 0])))
    ∧ (∀ s : State, ∃ t, exec .powerOn s = .next t ∧ t.limitsLock = false)
    ∧ ∀ s : State, s.Working → s.PlanOpen →
        ∃ t, exec (.partReset (.takes ())) s = .next t ∧ t.limitsLock = s.limitsLock

/-! ### Encodings (R182 to R190) -/

/-- Each well-formed request is encoded with the code that R186 gives it, and its frame decodes to that request, with
every operand at every value (R173, R182 to R186; that the first field listed has bit 0 of a presence mask, that FFh leaves
the scope unchanged, and the codes of the scopes are the model's readings, log 34, log 35 and log 37). A response frame is laid out as R185 gives, and
a transaction clocks out the response, then 00h, or FFh for every byte (R172, R200). The CRC-8 takes byte after byte
(R184). A transaction without a byte takes no request (R172). Bytes that are no well-formed frame are a FRAME_ERROR that
echoes the first of them; a well-formed frame is read whatever follows it (R173), a code outside R186's catalogue is
UNKNOWN, and operands of a length that the request does not take are ill-formed (R176, R186). The code of each status
(R185). -/
def Obligations.ConsoleFrames : Prop :=
  (∀ (i : Instr) (code : Byte) (ops : List Byte), i.wf = true → encodeRequest i = some (code, ops) →
      decodeTransaction (requestFrame code ops) = some i)
    ∧ (∀ (i : Instr) (code : Byte), i.wf = true → requestCode i = some code → (∀ b, i ≠ .frameError b) →
        ∃ ops, ops.length ≤ 40 ∧ encodeRequest i = some (code, ops))
    ∧ encodeRequest (.nop (.takes ())) = some (0x00, [])
    ∧ (∀ (s : State) (bytes : List Byte) (c : Instr), decodeTransaction bytes = some c →
        s.transaction bytes = { s with pending := s.pending ++ [c] })
    ∧ (∀ (code : Byte) (ops : List Byte), requestFrame code ops =
        code :: byte ops.length :: ops ++ [crc8 (code :: byte ops.length :: ops)])
    ∧ (∀ (st : Status) (code : Byte) (payload : List Byte),
        let body := byte st.code :: code :: byte (payload.length / 256) :: byte payload.length :: payload
        (⟨st, code, payload⟩ : Response).frame = body ++ [crc8 body])
    ∧ (∀ (r : Response) (n : Nat),
        (DataOut.frame r).bytes n = (r.frame ++ List.replicate n 0x00).take n
        ∧ DataOut.filler.bytes n = List.replicate n 0xFF ∧ DataOut.nothing.bytes n = [])
    ∧ (∀ (bs : List Byte) (b : Byte),
        let shift (reg : Byte) : Byte := if reg.getLsbD 7 = true then (reg <<< 1) ^^^ 0x07 else reg <<< 1
        crc8 [] = 0 ∧ crc8 (bs ++ [b]) = shift^[8] (crc8 bs ^^^ b))
    -- what is not a well-formed frame
    ∧ (decodeTransaction [] = none ∧ (∀ s : State, s.transaction [] = s)
      ∧ (∀ first : Byte, decodeTransaction [first] = some (.frameError first))
      ∧ ∀ (first len : Byte) (rest : List Byte),
          (rest = [] ∨ 40 < len.toNat ∨ rest.length ≤ len.toNat
            ∨ rest[len.toNat]? ≠ some (crc8 (first :: len :: rest.take len.toNat))) →
          decodeTransaction (first :: len :: rest) = some (.frameError first))
    -- a well-formed frame: the request that its code names, whatever follows the frame
    ∧ (∀ (code : Byte) (ops after : List Byte), ops.length ≤ 40 →
        decodeTransaction (requestFrame code ops ++ after) = some (decodeRequest code ops))
    ∧ (∀ (code : Byte) (ops : List Byte), code ∉ catalogue → decodeRequest code ops = .unknown code)
    ∧ (∀ r ∈ fixedRequests, ∀ ops : List Byte, ops.length ≠ r.2.1 → decodeRequest r.1 ops = r.2.2)
    ∧ (∀ ops : List Byte,
        ((∀ a, ops ≠ [0x00, a]) → (∀ b c, ops ≠ [0x01, b, c]) → decodeRequest 0x16 ops = .findPoint .illFormed)
        ∧ ((∀ g n bs, ops = g :: n :: bs → bs.length ≠ n.toNat) → decodeRequest 0x40 ops = .formGroup .illFormed)
        ∧ ∀ n rest, ops = n :: rest → n ≠ 2 → n ≠ 4 → decodeRequest 0x30 ops = .addConstraint .illFormed)
    ∧ [Status.done, .accepted, .busy, .refusedState, .refusedRange, .refusedLocked, .refusedFull, .conflict, .notFound,
        .unknown, .frameError].map Status.code = [0x00, 0x01, 0x02, 0x10, 0x11, 0x12, 0x13, 0x14, 0x20, 0x30, 0x31]

/-- The frames of a link (R189, R190): what the part sends for each message and how long an answer it expects; a node frame
built from its fields decodes to them, bits 4 to 7 of a node class ignored; a frame of another length, or whose CRC-16 does
not match, decodes to nothing (R76, R189); the CRC-16 takes byte after byte (R184). The frames that the bytes heard make, cut
where the line stays idle for 30 microseconds after a stop bit (R189; the bytes of a slot are those whose stop bit ends by
its end, log 36), and the judging of a slot (R76): the first frame that begins in the reply window, its first and last
moments counted in (the model's choice, log 38), is the answer, if it is unspoiled, ends before the slot does and decodes; a slot that expects no answer has none. -/
def Obligations.LinkFramesAndSlots : Prop :=
  (∀ (p : PointId) (n : NodeAddr) (permit : Permit) (target : Option Nat) (stop discard : Bool),
      let frame (body : List Byte) : List Byte :=
        body ++ [byte ((crc16 body).toNat / 256), byte (crc16 body).toNat]
      let control : Byte := byte (permit.code + if stop = true then 128 else 0)
      let height := target.getD 0xFFFF
      (Exchange.poll p n permit target stop discard).sent =
        (frame [byte n.val, control, byte (height / 256), byte height], 8)
      ∧ (Exchange.probe p n discard).sent = (frame [byte n.val], 10)
      ∧ Exchange.allStop.sent = (frame [0x00], 0))
    ∧ (∀ f : ReplyFields, f.node < 256 → f.height < 65536 → f.load < 65536 → decodeReply (replyFrame f) = some f)
    ∧ (∀ f : AnnounceFields, f.node < 256 → f.capacity < 65536 → f.stroke < 65536 → f.nodeClass < 256 →
        f.height < 65536 → decodeAnnounce (announceFrame f) = some { f with nodeClass := f.nodeClass % 16 })
    ∧ (∀ bytes : List Byte,
        let crcWrong (n : Nat) :=
          bytes.drop n ≠ [byte ((crc16 (bytes.take n)).toNat / 256), byte (crc16 (bytes.take n)).toNat]
        ((bytes.length ≠ 8 ∨ crcWrong 6) → decodeReply bytes = none)
        ∧ ((bytes.length ≠ 10 ∨ crcWrong 8) → decodeAnnounce bytes = none))
    ∧ (∀ (bs : List Byte) (b : Byte),
        let shift (reg : BitVec 16) : BitVec 16 := if reg.getLsbD 15 = true then (reg <<< 1) ^^^ 0x1021 else reg <<< 1
        crc16 [] = 0xFFFF ∧ crc16 (bs ++ [b]) = shift^[8] (crc16 bs ^^^ ((b.setWidth 16 : BitVec 16) <<< 8)))
    ∧ (∀ (b : HeardByte) (rest : List HeardByte),
        let alone : HeardFrame := ⟨b.start, [b.value], b.start + 10, !b.stopIdle⟩
        cutFrames [] = []
        ∧ (cutFrames rest = [] → cutFrames (b :: rest) = [alone])
        ∧ ∀ f fs, cutFrames rest = f :: fs →
          (b.start + 40 ≤ f.start → cutFrames (b :: rest) = alone :: f :: fs)
          ∧ (f.start < b.start + 40 → cutFrames (b :: rest) =
              ⟨b.start, b.value :: f.bytes, f.stop, !b.stopIdle || f.spoiled⟩ :: fs))
    ∧ (∀ (l : LinkId) (e : Exchange) (heard : List HeardByte),
        let frames := cutFrames (heard.filter fun b => b.start + 10 ≤ 400)
        let inWindow (f : HeardFrame) := e.sent.1.length * 10 ≤ f.start ∧ f.start ≤ e.sent.1.length * 10 + 250
        let good (f : HeardFrame) := f.spoiled = false ∧ f.stop < 400
        let none_ : Option Instr :=
          match e with
          | .poll .. => some (.missedReply l)
          | .probe .. => some (.probeUnanswered l)
          | .allStop => none
        ((∀ f ∈ frames, ¬ inWindow f) → judgeSlot l e heard = none_)
        ∧ (∀ before after f, frames = before ++ f :: after → (∀ g ∈ before, ¬ inWindow g) → inWindow f →
            (¬ good f → judgeSlot l e heard = none_)
            ∧ (good f → judgeSlot l e heard =
                match e with
                | .poll .. =>
                  match decodeReply f.bytes with
                  | some r => some (.reply l r)
                  | none => none_
                | .probe .. =>
                  match decodeAnnounce f.bytes with
                  | some a => some (.announce l a)
                  | none => none_
                | .allStop => none)))
    ∧ ∀ (s : State) (l : LinkId) (e : Exchange) (heard : List HeardByte) (c : Instr),
        (s.engine l).exchange = some e → judgeSlot l e heard = some c →
        s.slotEnd l heard = { s with pending := s.pending ++ [c] }
end

