-- ==== Sys2Proof/Laws/State.lean ====
section
/-! SUPPORT. One lemma per field per update of the state: an update leaves every other field. -/

namespace Sys2Proof.Machine.State

variable (s : State)

@[simp] theorem setPoint_bodies (p : PointId) (x : Point) : (s.setPoint p x).bodies = s.bodies := rfl
@[simp] theorem setPoint_constraints (p : PointId) (x : Point) : (s.setPoint p x).constraints = s.constraints := rfl
@[simp] theorem setPoint_plan (p : PointId) (x : Point) : (s.setPoint p x).plan = s.plan := rfl
@[simp] theorem setPoint_links (p : PointId) (x : Point) : (s.setPoint p x).links = s.links := rfl
@[simp] theorem setPoint_skew (p : PointId) (x : Point) : (s.setPoint p x).skew = s.skew := rfl
@[simp] theorem setPoint_groups (p : PointId) (x : Point) : (s.setPoint p x).groups = s.groups := rfl
@[simp] theorem setPoint_jog (p : PointId) (x : Point) : (s.setPoint p x).jog = s.jog := rfl
@[simp] theorem setPoint_stop (p : PointId) (x : Point) : (s.setPoint p x).stop = s.stop := rfl
@[simp] theorem setPoint_lines (p : PointId) (x : Point) : (s.setPoint p x).lines = s.lines := rfl
@[simp] theorem setPoint_pins (p : PointId) (x : Point) : (s.setPoint p x).pins = s.pins := rfl
@[simp] theorem setPoint_attention (p : PointId) (x : Point) : (s.setPoint p x).attention = s.attention := rfl
@[simp] theorem setPoint_limits (p : PointId) (x : Point) : (s.setPoint p x).limits = s.limits := rfl
@[simp] theorem setPoint_limitsLock (p : PointId) (x : Point) : (s.setPoint p x).limitsLock = s.limitsLock := rfl
@[simp] theorem setPoint_port (p : PointId) (x : Point) : (s.setPoint p x).port = s.port := rfl
@[simp] theorem setPoint_phase (p : PointId) (x : Point) : (s.setPoint p x).phase = s.phase := rfl
@[simp] theorem setPoint_pending (p : PointId) (x : Point) : (s.setPoint p x).pending = s.pending := rfl
@[simp] theorem setPoint_choices (p : PointId) (x : Point) : (s.setPoint p x).choices = s.choices := rfl

@[simp] theorem setBody_points (b : BodyId) (x : Option Body) : (s.setBody b x).points = s.points := rfl
@[simp] theorem setBody_constraints (b : BodyId) (x : Option Body) : (s.setBody b x).constraints = s.constraints := rfl
@[simp] theorem setBody_plan (b : BodyId) (x : Option Body) : (s.setBody b x).plan = s.plan := rfl
@[simp] theorem setBody_links (b : BodyId) (x : Option Body) : (s.setBody b x).links = s.links := rfl
@[simp] theorem setBody_skew (b : BodyId) (x : Option Body) : (s.setBody b x).skew = s.skew := rfl
@[simp] theorem setBody_groups (b : BodyId) (x : Option Body) : (s.setBody b x).groups = s.groups := rfl
@[simp] theorem setBody_jog (b : BodyId) (x : Option Body) : (s.setBody b x).jog = s.jog := rfl
@[simp] theorem setBody_stop (b : BodyId) (x : Option Body) : (s.setBody b x).stop = s.stop := rfl
@[simp] theorem setBody_lines (b : BodyId) (x : Option Body) : (s.setBody b x).lines = s.lines := rfl
@[simp] theorem setBody_pins (b : BodyId) (x : Option Body) : (s.setBody b x).pins = s.pins := rfl
@[simp] theorem setBody_attention (b : BodyId) (x : Option Body) : (s.setBody b x).attention = s.attention := rfl
@[simp] theorem setBody_limits (b : BodyId) (x : Option Body) : (s.setBody b x).limits = s.limits := rfl
@[simp] theorem setBody_limitsLock (b : BodyId) (x : Option Body) : (s.setBody b x).limitsLock = s.limitsLock := rfl
@[simp] theorem setBody_port (b : BodyId) (x : Option Body) : (s.setBody b x).port = s.port := rfl
@[simp] theorem setBody_phase (b : BodyId) (x : Option Body) : (s.setBody b x).phase = s.phase := rfl
@[simp] theorem setBody_pending (b : BodyId) (x : Option Body) : (s.setBody b x).pending = s.pending := rfl
@[simp] theorem setBody_choices (b : BodyId) (x : Option Body) : (s.setBody b x).choices = s.choices := rfl

@[simp] theorem setConstraint_points (c : ConstraintId) (x : Option Constraint) : (s.setConstraint c x).points = s.points := rfl
@[simp] theorem setConstraint_bodies (c : ConstraintId) (x : Option Constraint) : (s.setConstraint c x).bodies = s.bodies := rfl
@[simp] theorem setConstraint_plan (c : ConstraintId) (x : Option Constraint) : (s.setConstraint c x).plan = s.plan := rfl
@[simp] theorem setConstraint_links (c : ConstraintId) (x : Option Constraint) : (s.setConstraint c x).links = s.links := rfl
@[simp] theorem setConstraint_skew (c : ConstraintId) (x : Option Constraint) : (s.setConstraint c x).skew = s.skew := rfl
@[simp] theorem setConstraint_groups (c : ConstraintId) (x : Option Constraint) : (s.setConstraint c x).groups = s.groups := rfl
@[simp] theorem setConstraint_jog (c : ConstraintId) (x : Option Constraint) : (s.setConstraint c x).jog = s.jog := rfl
@[simp] theorem setConstraint_stop (c : ConstraintId) (x : Option Constraint) : (s.setConstraint c x).stop = s.stop := rfl
@[simp] theorem setConstraint_lines (c : ConstraintId) (x : Option Constraint) : (s.setConstraint c x).lines = s.lines := rfl
@[simp] theorem setConstraint_pins (c : ConstraintId) (x : Option Constraint) : (s.setConstraint c x).pins = s.pins := rfl
@[simp] theorem setConstraint_attention (c : ConstraintId) (x : Option Constraint) : (s.setConstraint c x).attention = s.attention := rfl
@[simp] theorem setConstraint_limits (c : ConstraintId) (x : Option Constraint) : (s.setConstraint c x).limits = s.limits := rfl
@[simp] theorem setConstraint_limitsLock (c : ConstraintId) (x : Option Constraint) : (s.setConstraint c x).limitsLock = s.limitsLock := rfl
@[simp] theorem setConstraint_port (c : ConstraintId) (x : Option Constraint) : (s.setConstraint c x).port = s.port := rfl
@[simp] theorem setConstraint_phase (c : ConstraintId) (x : Option Constraint) : (s.setConstraint c x).phase = s.phase := rfl
@[simp] theorem setConstraint_pending (c : ConstraintId) (x : Option Constraint) : (s.setConstraint c x).pending = s.pending := rfl
@[simp] theorem setConstraint_choices (c : ConstraintId) (x : Option Constraint) : (s.setConstraint c x).choices = s.choices := rfl

@[simp] theorem setEngine_points (l : LinkId) (x : Engine) : (s.setEngine l x).points = s.points := rfl
@[simp] theorem setEngine_bodies (l : LinkId) (x : Engine) : (s.setEngine l x).bodies = s.bodies := rfl
@[simp] theorem setEngine_constraints (l : LinkId) (x : Engine) : (s.setEngine l x).constraints = s.constraints := rfl
@[simp] theorem setEngine_plan (l : LinkId) (x : Engine) : (s.setEngine l x).plan = s.plan := rfl
@[simp] theorem setEngine_skew (l : LinkId) (x : Engine) : (s.setEngine l x).skew = s.skew := rfl
@[simp] theorem setEngine_groups (l : LinkId) (x : Engine) : (s.setEngine l x).groups = s.groups := rfl
@[simp] theorem setEngine_jog (l : LinkId) (x : Engine) : (s.setEngine l x).jog = s.jog := rfl
@[simp] theorem setEngine_stop (l : LinkId) (x : Engine) : (s.setEngine l x).stop = s.stop := rfl
@[simp] theorem setEngine_lines (l : LinkId) (x : Engine) : (s.setEngine l x).lines = s.lines := rfl
@[simp] theorem setEngine_pins (l : LinkId) (x : Engine) : (s.setEngine l x).pins = s.pins := rfl
@[simp] theorem setEngine_attention (l : LinkId) (x : Engine) : (s.setEngine l x).attention = s.attention := rfl
@[simp] theorem setEngine_limits (l : LinkId) (x : Engine) : (s.setEngine l x).limits = s.limits := rfl
@[simp] theorem setEngine_limitsLock (l : LinkId) (x : Engine) : (s.setEngine l x).limitsLock = s.limitsLock := rfl
@[simp] theorem setEngine_port (l : LinkId) (x : Engine) : (s.setEngine l x).port = s.port := rfl
@[simp] theorem setEngine_phase (l : LinkId) (x : Engine) : (s.setEngine l x).phase = s.phase := rfl
@[simp] theorem setEngine_pending (l : LinkId) (x : Engine) : (s.setEngine l x).pending = s.pending := rfl
@[simp] theorem setEngine_choices (l : LinkId) (x : Engine) : (s.setEngine l x).choices = s.choices := rfl

@[simp] theorem setGroup_points (g : GroupId) (x : Group) : (s.setGroup g x).points = s.points := rfl
@[simp] theorem setGroup_bodies (g : GroupId) (x : Group) : (s.setGroup g x).bodies = s.bodies := rfl
@[simp] theorem setGroup_constraints (g : GroupId) (x : Group) : (s.setGroup g x).constraints = s.constraints := rfl
@[simp] theorem setGroup_plan (g : GroupId) (x : Group) : (s.setGroup g x).plan = s.plan := rfl
@[simp] theorem setGroup_links (g : GroupId) (x : Group) : (s.setGroup g x).links = s.links := rfl
@[simp] theorem setGroup_skew (g : GroupId) (x : Group) : (s.setGroup g x).skew = s.skew := rfl
@[simp] theorem setGroup_jog (g : GroupId) (x : Group) : (s.setGroup g x).jog = s.jog := rfl
@[simp] theorem setGroup_stop (g : GroupId) (x : Group) : (s.setGroup g x).stop = s.stop := rfl
@[simp] theorem setGroup_lines (g : GroupId) (x : Group) : (s.setGroup g x).lines = s.lines := rfl
@[simp] theorem setGroup_pins (g : GroupId) (x : Group) : (s.setGroup g x).pins = s.pins := rfl
@[simp] theorem setGroup_attention (g : GroupId) (x : Group) : (s.setGroup g x).attention = s.attention := rfl
@[simp] theorem setGroup_limits (g : GroupId) (x : Group) : (s.setGroup g x).limits = s.limits := rfl
@[simp] theorem setGroup_limitsLock (g : GroupId) (x : Group) : (s.setGroup g x).limitsLock = s.limitsLock := rfl
@[simp] theorem setGroup_port (g : GroupId) (x : Group) : (s.setGroup g x).port = s.port := rfl
@[simp] theorem setGroup_phase (g : GroupId) (x : Group) : (s.setGroup g x).phase = s.phase := rfl
@[simp] theorem setGroup_pending (g : GroupId) (x : Group) : (s.setGroup g x).pending = s.pending := rfl
@[simp] theorem setGroup_choices (g : GroupId) (x : Group) : (s.setGroup g x).choices = s.choices := rfl

@[simp] theorem setLine_points (l : LineId) (x : Line) : (s.setLine l x).points = s.points := rfl
@[simp] theorem setLine_bodies (l : LineId) (x : Line) : (s.setLine l x).bodies = s.bodies := rfl
@[simp] theorem setLine_constraints (l : LineId) (x : Line) : (s.setLine l x).constraints = s.constraints := rfl
@[simp] theorem setLine_plan (l : LineId) (x : Line) : (s.setLine l x).plan = s.plan := rfl
@[simp] theorem setLine_links (l : LineId) (x : Line) : (s.setLine l x).links = s.links := rfl
@[simp] theorem setLine_skew (l : LineId) (x : Line) : (s.setLine l x).skew = s.skew := rfl
@[simp] theorem setLine_groups (l : LineId) (x : Line) : (s.setLine l x).groups = s.groups := rfl
@[simp] theorem setLine_jog (l : LineId) (x : Line) : (s.setLine l x).jog = s.jog := rfl
@[simp] theorem setLine_stop (l : LineId) (x : Line) : (s.setLine l x).stop = s.stop := rfl
@[simp] theorem setLine_pins (l : LineId) (x : Line) : (s.setLine l x).pins = s.pins := rfl
@[simp] theorem setLine_attention (l : LineId) (x : Line) : (s.setLine l x).attention = s.attention := rfl
@[simp] theorem setLine_limits (l : LineId) (x : Line) : (s.setLine l x).limits = s.limits := rfl
@[simp] theorem setLine_limitsLock (l : LineId) (x : Line) : (s.setLine l x).limitsLock = s.limitsLock := rfl
@[simp] theorem setLine_port (l : LineId) (x : Line) : (s.setLine l x).port = s.port := rfl
@[simp] theorem setLine_phase (l : LineId) (x : Line) : (s.setLine l x).phase = s.phase := rfl
@[simp] theorem setLine_pending (l : LineId) (x : Line) : (s.setLine l x).pending = s.pending := rfl
@[simp] theorem setLine_choices (l : LineId) (x : Line) : (s.setLine l x).choices = s.choices := rfl

@[simp] theorem setSkew_points (b : BodyId) (x : Bool) : (s.setSkew b x).points = s.points := rfl
@[simp] theorem setSkew_bodies (b : BodyId) (x : Bool) : (s.setSkew b x).bodies = s.bodies := rfl
@[simp] theorem setSkew_constraints (b : BodyId) (x : Bool) : (s.setSkew b x).constraints = s.constraints := rfl
@[simp] theorem setSkew_plan (b : BodyId) (x : Bool) : (s.setSkew b x).plan = s.plan := rfl
@[simp] theorem setSkew_links (b : BodyId) (x : Bool) : (s.setSkew b x).links = s.links := rfl
@[simp] theorem setSkew_groups (b : BodyId) (x : Bool) : (s.setSkew b x).groups = s.groups := rfl
@[simp] theorem setSkew_jog (b : BodyId) (x : Bool) : (s.setSkew b x).jog = s.jog := rfl
@[simp] theorem setSkew_stop (b : BodyId) (x : Bool) : (s.setSkew b x).stop = s.stop := rfl
@[simp] theorem setSkew_lines (b : BodyId) (x : Bool) : (s.setSkew b x).lines = s.lines := rfl
@[simp] theorem setSkew_pins (b : BodyId) (x : Bool) : (s.setSkew b x).pins = s.pins := rfl
@[simp] theorem setSkew_attention (b : BodyId) (x : Bool) : (s.setSkew b x).attention = s.attention := rfl
@[simp] theorem setSkew_limits (b : BodyId) (x : Bool) : (s.setSkew b x).limits = s.limits := rfl
@[simp] theorem setSkew_limitsLock (b : BodyId) (x : Bool) : (s.setSkew b x).limitsLock = s.limitsLock := rfl
@[simp] theorem setSkew_port (b : BodyId) (x : Bool) : (s.setSkew b x).port = s.port := rfl
@[simp] theorem setSkew_phase (b : BodyId) (x : Bool) : (s.setSkew b x).phase = s.phase := rfl
@[simp] theorem setSkew_pending (b : BodyId) (x : Bool) : (s.setSkew b x).pending = s.pending := rfl
@[simp] theorem setSkew_choices (b : BodyId) (x : Bool) : (s.setSkew b x).choices = s.choices := rfl

@[simp] theorem mapPoints_bodies (f : PointId → Point → Point) : (s.mapPoints f).bodies = s.bodies := rfl
@[simp] theorem mapPoints_constraints (f : PointId → Point → Point) : (s.mapPoints f).constraints = s.constraints := rfl
@[simp] theorem mapPoints_plan (f : PointId → Point → Point) : (s.mapPoints f).plan = s.plan := rfl
@[simp] theorem mapPoints_links (f : PointId → Point → Point) : (s.mapPoints f).links = s.links := rfl
@[simp] theorem mapPoints_skew (f : PointId → Point → Point) : (s.mapPoints f).skew = s.skew := rfl
@[simp] theorem mapPoints_groups (f : PointId → Point → Point) : (s.mapPoints f).groups = s.groups := rfl
@[simp] theorem mapPoints_jog (f : PointId → Point → Point) : (s.mapPoints f).jog = s.jog := rfl
@[simp] theorem mapPoints_stop (f : PointId → Point → Point) : (s.mapPoints f).stop = s.stop := rfl
@[simp] theorem mapPoints_lines (f : PointId → Point → Point) : (s.mapPoints f).lines = s.lines := rfl
@[simp] theorem mapPoints_pins (f : PointId → Point → Point) : (s.mapPoints f).pins = s.pins := rfl
@[simp] theorem mapPoints_attention (f : PointId → Point → Point) : (s.mapPoints f).attention = s.attention := rfl
@[simp] theorem mapPoints_limits (f : PointId → Point → Point) : (s.mapPoints f).limits = s.limits := rfl
@[simp] theorem mapPoints_limitsLock (f : PointId → Point → Point) : (s.mapPoints f).limitsLock = s.limitsLock := rfl
@[simp] theorem mapPoints_port (f : PointId → Point → Point) : (s.mapPoints f).port = s.port := rfl
@[simp] theorem mapPoints_phase (f : PointId → Point → Point) : (s.mapPoints f).phase = s.phase := rfl
@[simp] theorem mapPoints_pending (f : PointId → Point → Point) : (s.mapPoints f).pending = s.pending := rfl
@[simp] theorem mapPoints_choices (f : PointId → Point → Point) : (s.mapPoints f).choices = s.choices := rfl

@[simp] theorem mapBodies_points (f : BodyId → Body → Body) : (s.mapBodies f).points = s.points := rfl
@[simp] theorem mapBodies_constraints (f : BodyId → Body → Body) : (s.mapBodies f).constraints = s.constraints := rfl
@[simp] theorem mapBodies_plan (f : BodyId → Body → Body) : (s.mapBodies f).plan = s.plan := rfl
@[simp] theorem mapBodies_links (f : BodyId → Body → Body) : (s.mapBodies f).links = s.links := rfl
@[simp] theorem mapBodies_skew (f : BodyId → Body → Body) : (s.mapBodies f).skew = s.skew := rfl
@[simp] theorem mapBodies_groups (f : BodyId → Body → Body) : (s.mapBodies f).groups = s.groups := rfl
@[simp] theorem mapBodies_jog (f : BodyId → Body → Body) : (s.mapBodies f).jog = s.jog := rfl
@[simp] theorem mapBodies_stop (f : BodyId → Body → Body) : (s.mapBodies f).stop = s.stop := rfl
@[simp] theorem mapBodies_lines (f : BodyId → Body → Body) : (s.mapBodies f).lines = s.lines := rfl
@[simp] theorem mapBodies_pins (f : BodyId → Body → Body) : (s.mapBodies f).pins = s.pins := rfl
@[simp] theorem mapBodies_attention (f : BodyId → Body → Body) : (s.mapBodies f).attention = s.attention := rfl
@[simp] theorem mapBodies_limits (f : BodyId → Body → Body) : (s.mapBodies f).limits = s.limits := rfl
@[simp] theorem mapBodies_limitsLock (f : BodyId → Body → Body) : (s.mapBodies f).limitsLock = s.limitsLock := rfl
@[simp] theorem mapBodies_port (f : BodyId → Body → Body) : (s.mapBodies f).port = s.port := rfl
@[simp] theorem mapBodies_phase (f : BodyId → Body → Body) : (s.mapBodies f).phase = s.phase := rfl
@[simp] theorem mapBodies_pending (f : BodyId → Body → Body) : (s.mapBodies f).pending = s.pending := rfl
@[simp] theorem mapBodies_choices (f : BodyId → Body → Body) : (s.mapBodies f).choices = s.choices := rfl

@[simp] theorem raiseFlag_points (f : Flag) : (s.raiseFlag f).points = s.points := rfl
@[simp] theorem raiseFlag_bodies (f : Flag) : (s.raiseFlag f).bodies = s.bodies := rfl
@[simp] theorem raiseFlag_constraints (f : Flag) : (s.raiseFlag f).constraints = s.constraints := rfl
@[simp] theorem raiseFlag_plan (f : Flag) : (s.raiseFlag f).plan = s.plan := rfl
@[simp] theorem raiseFlag_links (f : Flag) : (s.raiseFlag f).links = s.links := rfl
@[simp] theorem raiseFlag_skew (f : Flag) : (s.raiseFlag f).skew = s.skew := rfl
@[simp] theorem raiseFlag_groups (f : Flag) : (s.raiseFlag f).groups = s.groups := rfl
@[simp] theorem raiseFlag_jog (f : Flag) : (s.raiseFlag f).jog = s.jog := rfl
@[simp] theorem raiseFlag_stop (f : Flag) : (s.raiseFlag f).stop = s.stop := rfl
@[simp] theorem raiseFlag_lines (f : Flag) : (s.raiseFlag f).lines = s.lines := rfl
@[simp] theorem raiseFlag_pins (f : Flag) : (s.raiseFlag f).pins = s.pins := rfl
@[simp] theorem raiseFlag_limits (f : Flag) : (s.raiseFlag f).limits = s.limits := rfl
@[simp] theorem raiseFlag_limitsLock (f : Flag) : (s.raiseFlag f).limitsLock = s.limitsLock := rfl
@[simp] theorem raiseFlag_port (f : Flag) : (s.raiseFlag f).port = s.port := rfl
@[simp] theorem raiseFlag_phase (f : Flag) : (s.raiseFlag f).phase = s.phase := rfl
@[simp] theorem raiseFlag_pending (f : Flag) : (s.raiseFlag f).pending = s.pending := rfl
@[simp] theorem raiseFlag_choices (f : Flag) : (s.raiseFlag f).choices = s.choices := rfl

@[simp] theorem settle_bodies : (s.settle).bodies = s.bodies := rfl
@[simp] theorem settle_constraints : (s.settle).constraints = s.constraints := rfl
@[simp] theorem settle_plan : (s.settle).plan = s.plan := rfl
@[simp] theorem settle_links : (s.settle).links = s.links := rfl
@[simp] theorem settle_skew : (s.settle).skew = s.skew := rfl
@[simp] theorem settle_groups : (s.settle).groups = s.groups := rfl
@[simp] theorem settle_jog : (s.settle).jog = s.jog := rfl
@[simp] theorem settle_stop : (s.settle).stop = s.stop := rfl
@[simp] theorem settle_pins : (s.settle).pins = s.pins := rfl
@[simp] theorem settle_limits : (s.settle).limits = s.limits := rfl
@[simp] theorem settle_limitsLock : (s.settle).limitsLock = s.limitsLock := rfl
@[simp] theorem settle_port : (s.settle).port = s.port := rfl
@[simp] theorem settle_phase : (s.settle).phase = s.phase := rfl
@[simp] theorem settle_pending : (s.settle).pending = s.pending := rfl
@[simp] theorem settle_choices : (s.settle).choices = s.choices := rfl

@[simp] theorem answered_points (t : State) (k : Byte) (st : Status) (y : List Byte) : (s.answered t k st y).points = t.points := rfl
@[simp] theorem answered_bodies (t : State) (k : Byte) (st : Status) (y : List Byte) : (s.answered t k st y).bodies = t.bodies := rfl
@[simp] theorem answered_constraints (t : State) (k : Byte) (st : Status) (y : List Byte) : (s.answered t k st y).constraints = t.constraints := rfl
@[simp] theorem answered_plan (t : State) (k : Byte) (st : Status) (y : List Byte) : (s.answered t k st y).plan = t.plan := rfl
@[simp] theorem answered_links (t : State) (k : Byte) (st : Status) (y : List Byte) : (s.answered t k st y).links = t.links := rfl
@[simp] theorem answered_skew (t : State) (k : Byte) (st : Status) (y : List Byte) : (s.answered t k st y).skew = t.skew := rfl
@[simp] theorem answered_groups (t : State) (k : Byte) (st : Status) (y : List Byte) : (s.answered t k st y).groups = t.groups := rfl
@[simp] theorem answered_jog (t : State) (k : Byte) (st : Status) (y : List Byte) : (s.answered t k st y).jog = t.jog := rfl
@[simp] theorem answered_stop (t : State) (k : Byte) (st : Status) (y : List Byte) : (s.answered t k st y).stop = t.stop := rfl
@[simp] theorem answered_lines (t : State) (k : Byte) (st : Status) (y : List Byte) : (s.answered t k st y).lines = t.lines := rfl
@[simp] theorem answered_pins (t : State) (k : Byte) (st : Status) (y : List Byte) : (s.answered t k st y).pins = t.pins := rfl
@[simp] theorem answered_attention (t : State) (k : Byte) (st : Status) (y : List Byte) : (s.answered t k st y).attention = t.attention := rfl
@[simp] theorem answered_limits (t : State) (k : Byte) (st : Status) (y : List Byte) : (s.answered t k st y).limits = t.limits := rfl
@[simp] theorem answered_limitsLock (t : State) (k : Byte) (st : Status) (y : List Byte) : (s.answered t k st y).limitsLock = t.limitsLock := rfl
@[simp] theorem answered_phase (t : State) (k : Byte) (st : Status) (y : List Byte) : (s.answered t k st y).phase = t.phase := rfl
@[simp] theorem answered_pending (t : State) (k : Byte) (st : Status) (y : List Byte) : (s.answered t k st y).pending = t.pending := rfl
@[simp] theorem answered_choices (t : State) (k : Byte) (st : Status) (y : List Byte) : (s.answered t k st y).choices = t.choices := rfl

@[simp] theorem setPoint_points (p : PointId) (x : Point) : (s.setPoint p x).points = s.points.put p x := rfl
@[simp] theorem setBody_bodies (b : BodyId) (x : Option Body) : (s.setBody b x).bodies = s.bodies.put b x := rfl
@[simp] theorem setConstraint_constraints (c : ConstraintId) (x : Option Constraint) :
    (s.setConstraint c x).constraints = s.constraints.put c x := rfl
@[simp] theorem setEngine_links (l : LinkId) (x : Engine) : (s.setEngine l x).links = s.links.put l x := rfl
@[simp] theorem setGroup_groups (g : GroupId) (x : Group) : (s.setGroup g x).groups = s.groups.put g x := rfl
@[simp] theorem setLine_lines (l : LineId) (x : Line) : (s.setLine l x).lines = s.lines.put l x := rfl
@[simp] theorem setSkew_skew (b : BodyId) (x : Bool) : (s.setSkew b x).skew = s.skew.put b x := rfl
@[simp] theorem mapPoints_points (f : PointId → Point → Point) : (s.mapPoints f).points = s.points.mapAll f := rfl
@[simp] theorem mapBodies_bodies (f : BodyId → Body → Body) :
    (s.mapBodies f).bodies = s.bodies.mapAll fun b x => x.map (f b) := rfl
@[simp] theorem raiseFlag_flags (f : Flag) :
    (s.raiseFlag f).attention.flags = insertBit s.attention.flags f.bit := rfl
@[simp] theorem raiseFlag_enables (f : Flag) : (s.raiseFlag f).attention.enables = s.attention.enables := rfl
@[simp] theorem raiseFlag_attn (f : Flag) : (s.raiseFlag f).attention.attn = s.attention.attn := rfl
@[simp] theorem settle_points :
    s.settle.points = s.points.mapAll fun p x => { x with permit := s.permitOf p x } := rfl
@[simp] theorem settle_lines : s.settle.lines = s.lines.mapAll fun _ x => { x with drive := s.driveOf x } := rfl
@[simp] theorem settle_attention : s.settle.attention = { s.attention with attn := s.attention.calls } := rfl
@[simp] theorem answered_last (t : State) (k : Byte) (st : Status) (y : List Byte) :
    (s.answered t k st y).port.last = ⟨st, k, y⟩ := rfl
@[simp] theorem answered_out (t : State) (k : Byte) (st : Status) (y : List Byte) :
    (s.answered t k st y).port.out = .frame s.port.last := rfl
@[simp] theorem answered_focus (t : State) (k : Byte) (st : Status) (y : List Byte) :
    (s.answered t k st y).port.focus = t.port.focus := rfl
@[simp] theorem answered_scope (t : State) (k : Byte) (st : Status) (y : List Byte) :
    (s.answered t k st y).port.scope = t.port.scope := rfl

end Sys2Proof.Machine.State
end

