-- ==== Sys2Proof/Laws/Ops.lean ====
section
/-! SUPPORT. What the shared operations do, said once: reading a table that was written, settling, requests and
events, the free order, claims, the end of a jog, the setting of the latch. -/

namespace Sys2Proof

/-! ### Tables -/

namespace Table

variable {α β : Type} {n : Nat} (t : Table α n)

@[simp] theorem at_put_self (i : Fin n) (a : α) : (t.put i a).at i = a := by
  simp [Table.at, Table.put]

theorem at_put_of_ne {i j : Fin n} (h : i ≠ j) (a : α) : (t.put i a).at j = t.at j := by
  simp [Table.at, Table.put, Fin.val_ne_of_ne h]

theorem at_put (i j : Fin n) (a : α) : (t.put i a).at j = if i = j then a else t.at j := by
  split
  · next h => subst h; simp
  · next h => exact at_put_of_ne t h a

@[simp] theorem at_mapAll (f : Fin n → α → β) (i : Fin n) : (t.mapAll f).at i = f i (t.at i) := by
  unfold Table.mapAll
  simp [Table.at]

theorem ext_at {t u : Table α n} (h : ∀ i, t.at i = u.at i) : t = u := by
  apply Vector.ext
  intro i hi
  exact h ⟨i, hi⟩

theorem mapAll_eq_self (f : Fin n → α → α) (h : ∀ i, f i (t.at i) = t.at i) : t.mapAll f = t :=
  ext_at fun i => by rw [at_mapAll, h]

@[simp] theorem put_at_self (i : Fin n) : t.put i (t.at i) = t :=
  ext_at fun j => by
    rw [at_put]
    split
    · next h => rw [h]
    · rfl

end Table

/-- The id a number names is that number. -/
theorem fin?_val {n : Nat} (i : Fin n) : fin? n i.val = some i := by simp [fin?]

theorem fin?_of_lt {n k : Nat} (h : k < n) : fin? n k = some ⟨k, h⟩ := by simp [fin?, h]

theorem fin?_of_not_lt {n k : Nat} (h : ¬ k < n) : fin? n k = none := by simp [fin?, h]

theorem fin?_eq_some {n k : Nat} {i : Fin n} (h : fin? n k = some i) : i.val = k := by
  unfold fin? at h
  split at h
  · cases h; rfl
  · cases h

@[simp] theorem mem_ids {n : Nat} (i : Fin n) : i ∈ ids n := List.mem_finRange i

namespace Machine

/-! ### Records after a write -/

namespace State

variable (s : State)

@[simp] theorem point_setPoint_self (p : PointId) (x : Point) : (s.setPoint p x).point p = x := by
  simp [State.point]
theorem point_setPoint_of_ne {p q : PointId} (h : p ≠ q) (x : Point) : (s.setPoint p x).point q = s.point q := by
  simp [State.point, Table.at_put_of_ne _ h]
@[simp] theorem point_mapPoints (f : PointId → Point → Point) (p : PointId) :
    (s.mapPoints f).point p = f p (s.point p) := by simp [State.point]
@[simp] theorem body_setBody_self (b : BodyId) (x : Option Body) : (s.setBody b x).body b = x := by
  simp [State.body]
theorem body_setBody_of_ne {b c : BodyId} (h : b ≠ c) (x : Option Body) : (s.setBody b x).body c = s.body c := by
  simp [State.body, Table.at_put_of_ne _ h]
@[simp] theorem body_mapBodies (f : BodyId → Body → Body) (b : BodyId) :
    (s.mapBodies f).body b = (s.body b).map (f b) := by simp [State.body]
@[simp] theorem constraint_setConstraint_self (c : ConstraintId) (x : Option Constraint) :
    (s.setConstraint c x).constraint c = x := by simp [State.constraint]
theorem constraint_setConstraint_of_ne {c d : ConstraintId} (h : c ≠ d) (x : Option Constraint) :
    (s.setConstraint c x).constraint d = s.constraint d := by simp [State.constraint, Table.at_put_of_ne _ h]
@[simp] theorem engine_setEngine_self (l : LinkId) (x : Engine) : (s.setEngine l x).engine l = x := by
  simp [State.engine]
theorem engine_setEngine_of_ne {l m : LinkId} (h : l ≠ m) (x : Engine) : (s.setEngine l x).engine m = s.engine m := by
  simp [State.engine, Table.at_put_of_ne _ h]
@[simp] theorem group_setGroup_self (g : GroupId) (x : Group) : (s.setGroup g x).group g = x := by
  simp [State.group]
theorem group_setGroup_of_ne {g h : GroupId} (ne : g ≠ h) (x : Group) : (s.setGroup g x).group h = s.group h := by
  simp [State.group, Table.at_put_of_ne _ ne]
@[simp] theorem line_setLine_self (l : LineId) (x : Line) : (s.setLine l x).line l = x := by
  simp [State.line]
theorem line_setLine_of_ne {l m : LineId} (h : l ≠ m) (x : Line) : (s.setLine l x).line m = s.line m := by
  simp [State.line, Table.at_put_of_ne _ h]

/-! ### Settling -/

@[simp] theorem point_settle (p : PointId) :
    s.settle.point p = { s.point p with permit := s.permitOf p (s.point p) } := by simp [State.point]
@[simp] theorem line_settle (l : LineId) : s.settle.line l = { s.line l with drive := s.driveOf (s.line l) } := by
  simp [State.line]
@[simp] theorem group_settle (g : GroupId) : s.settle.group g = s.group g := rfl
@[simp] theorem engine_settle (l : LinkId) : s.settle.engine l = s.engine l := rfl
@[simp] theorem body_settle (b : BodyId) : s.settle.body b = s.body b := rfl
@[simp] theorem constraint_settle (c : ConstraintId) : s.settle.constraint c = s.constraint c := rfl

/-- R143's table reads the latch, the jog, the groups and the rest band of the state and nothing else. -/
theorem permitOf_congr {s t : State} (h1 : s.stop = t.stop) (h2 : s.jog.active = t.jog.active)
    (h3 : s.limits.restBand = t.limits.restBand) (h4 : s.groups = t.groups) (p : PointId) (x : Point) :
    s.permitOf p x = t.permitOf p x := by
  simp [State.permitOf, State.permitOf.groupRow, State.group, h1, h2, h3, h4]

/-- R143's table does not read the permit held. -/
theorem permitOf_permit (p : PointId) (x : Point) (m : Permit) : s.permitOf p { x with permit := m } = s.permitOf p x :=
  rfl

/-- R167's table reads the groups, the jog and the latch of the state and nothing else. -/
theorem driveOf_congr {s t : State} (h1 : s.stop = t.stop) (h2 : s.jog.active = t.jog.active)
    (h3 : s.groups = t.groups) (x : Line) : s.driveOf x = t.driveOf x := by
  have e : s.outputActive x = t.outputActive x := by
    simp only [State.outputActive, State.group, h1, h2, h3]
  simp only [State.driveOf, e]

/-- R167's table does not read the level driven. -/
theorem driveOf_drive (x : Line) (d : Option Level) : s.driveOf { x with drive := d } = s.driveOf x := rfl

/-- A settled state: every derived field follows its rule. -/
theorem settled_settle : s.settle.Settled := by
  refine ⟨fun p => ?_, fun l => ?_, rfl⟩
  · rw [point_settle]
    exact (permitOf_congr (s := s) (t := s.settle) rfl rfl rfl rfl p _)
  · rw [line_settle]
    exact (driveOf_congr (s := s) (t := s.settle) rfl rfl rfl _)

/-- Settling a settled state changes nothing. -/
theorem settle_of_settled {s : State} (h : s.Settled) : s.settle = s := by
  obtain ⟨hp, hl, ha⟩ := h
  have e1 : (s.points.mapAll fun p x => { x with permit := s.permitOf p x }) = s.points :=
    Table.mapAll_eq_self _ _ fun p => by
      have := hp p
      simp only [State.point] at this
      rw [← this]
  have e2 : (s.lines.mapAll fun _ x => { x with drive := s.driveOf x }) = s.lines :=
    Table.mapAll_eq_self _ _ fun l => by
      have := hl l
      simp only [State.line] at this
      rw [← this]
  have e3 : { s.attention with attn := s.attention.calls } = s.attention := by
    have : s.attention.attn = s.attention.calls := ha
    rw [← this]
  unfold State.settle
  rw [e1, e2, e3]

end State

/-! ### Requests and events -/

/-- A request whose operands decode, taken while the part works. -/
theorem request_takes {α : Type} (s : State) (h : s.phase = .running) (code : Byte) (o : α)
    (act : α → State → Answer × State) :
    s.request code (.takes o) act = s.answered (act o s).2 code (act o s).1.status (act o s).1.payload := by
  unfold State.request
  rw [h]
  rfl

/-- A request whose operands do not decode is refused at the range stage (R183). -/
theorem request_illFormed {α : Type} (s : State) (h : s.phase = .running) (code : Byte)
    (act : α → State → Answer × State) : s.request code .illFormed act = s.answered s code .refusedRange [] := by
  unfold State.request
  rw [h]
  rfl

/-- While the pin is asserted a request changes nothing. -/
theorem request_held {α : Type} (s : State) (h : s.phase = .held) (code : Byte) (ops : Carried α)
    (act : α → State → Answer × State) : s.request code ops act = s := by
  unfold State.request
  rw [h]

/-- During the start-up wait a request changes the bytes clocked out alone (R200). -/
theorem request_waiting {α : Type} (s : State) {n : Nat} (h : s.phase = .waiting n) (code : Byte) (ops : Carried α)
    (act : α → State → Answer × State) :
    s.request code ops act = { s with port := { s.port with out := .filler } } := by
  unfold State.request
  rw [h]

/-- An event while the part works. -/
theorem event_working (s : State) (h : s.phase = .running) (act : State → State) : s.event act = act s := by
  unfold State.event
  rw [h]

/-- An event while the part does not work changes nothing. -/
theorem event_not_working (s : State) (h : s.phase ≠ .running) (act : State → State) : s.event act = s := by
  unfold State.event
  split
  · rfl
  · rfl
  · next e => exact absurd e h

/-- One step on a queue that holds a command. -/
theorem step_cons {s : State} {c : Instr} {rest : List Instr} (h : s.pending = c :: rest) :
    step s = exec c { s with pending := rest } := by
  unfold step
  rw [h]

/-- One step on an empty queue. -/
theorem step_nil {s : State} (h : s.pending = []) : step s = .next s.tick := by
  unfold step
  rw [h]

/-! ### The free order -/

/-- Every property that each order's outcome has, and that the choice counter does not bear on, the chosen outcome
has. -/
theorem chooseOrder_ind {motive : State → Prop} (first : State) (others : List State)
    (count : ∀ t n, motive t → motive { t with choices := n }) (h1 : motive first) (h2 : ∀ t ∈ others, motive t) :
    motive (chooseOrder first others) := by
  have pick : ∀ (l : List State) (k : Nat), (∀ t ∈ l, motive t) → motive (l.getD k first) := by
    intro l
    induction l with
    | nil => intro k _; simpa using h1
    | cons a l ih =>
      intro k hl
      cases k with
      | zero => exact hl a (by simp)
      | succ k => exact ih k fun t ht => hl t (by simp [ht])
  unfold chooseOrder
  split
  · exact h1
  · exact count _ _ (pick _ _ fun t ht => by
      rcases List.mem_cons.1 ht with rfl | ht
      · exact h1
      · exact h2 t ht)

/-- Where every order ends alike, that end is the outcome. -/
theorem chooseOrder_of_all (first : State) (others : List State) (h : ∀ t ∈ others, t = first) :
    chooseOrder first others = first := by
  unfold chooseOrder
  rw [if_pos]
  simpa using h

/-! ### Claims (R129) -/

namespace State

/-- A claim writes the group's record and the attention unit alone. -/
theorem claim_eq (s : State) (g : GroupId) (c : HoldCause) :
    ∃ x a, s.claim g c = { s with groups := s.groups.put g x, attention := a } := by
  unfold State.claim
  dsimp only
  split
  · exact ⟨_, _, rfl⟩
  · exact ⟨_, _, rfl⟩
  · exact ⟨_, s.attention, rfl⟩
  · exact ⟨s.group g, s.attention, by simp [State.group]⟩
  · exact ⟨s.group g, s.attention, by simp [State.group]⟩
  · exact ⟨s.group g, s.attention, by simp [State.group]⟩

/-- A claim leaves every other group. -/
theorem group_claim_of_ne (s : State) {g h : GroupId} (ne : g ≠ h) (c : HoldCause) :
    (s.claim g c).group h = s.group h := by
  obtain ⟨x, a, e⟩ := s.claim_eq g c
  rw [e]
  exact Table.at_put_of_ne _ ne _

/-- Claims on several groups write group records and the attention unit alone. -/
theorem foldl_claim_eq (c : HoldCause) (gs : List GroupId) (s : State) :
    ∃ x a, gs.foldl (fun t g => t.claim g c) s = { s with groups := x, attention := a } := by
  induction gs generalizing s with
  | nil => exact ⟨s.groups, s.attention, rfl⟩
  | cons g gs ih =>
    obtain ⟨x, a, e⟩ := s.claim_eq g c
    obtain ⟨y, b, f⟩ := ih (s.claim g c)
    exact ⟨y, b, by rw [List.foldl_cons, f, e]⟩

theorem claimAll_eq (s : State) (c : HoldCause) : ∃ x a, s.claimAll c = { s with groups := x, attention := a } :=
  foldl_claim_eq c (ids 4) s

theorem claimGroups_eq (s : State) (gs : List GroupId) (c : HoldCause) :
    ∃ x a, s.claimGroups gs c = { s with groups := x, attention := a } :=
  foldl_claim_eq c gs s

theorem claimOn_eq (s : State) (g : Option GroupId) (c : HoldCause) :
    ∃ x a, s.claimOn g c = { s with groups := x, attention := a } := by
  cases g with
  | none => exact ⟨s.groups, s.attention, rfl⟩
  | some g =>
    obtain ⟨x, a, e⟩ := s.claim_eq g c
    exact ⟨_, a, e⟩

/-! ### The end of a jog (R149) and the latch (R155) -/

/-- The end of a jog writes the points, the jog slot and the attention unit alone. -/
theorem endJog_eq (s : State) (o : JogOutcome) :
    ∃ x j a, s.endJog o = { s with points := x, jog := j, attention := a } := by
  unfold State.endJog
  split
  · exact ⟨s.points, s.jog, s.attention, rfl⟩
  · exact ⟨_, _, _, rfl⟩

theorem jogNotice_eq (s : State) (p : PointId) (o : JogOutcome) :
    ∃ x j a, s.jogNotice p o = { s with points := x, jog := j, attention := a } := by
  unfold State.jogNotice
  split
  · split
    · exact s.endJog_eq o
    · exact ⟨s.points, s.jog, s.attention, rfl⟩
  · exact ⟨s.points, s.jog, s.attention, rfl⟩

/-- The end of a jog leaves the slot IDLE. -/
theorem endJog_active (s : State) (o : JogOutcome) : (s.endJog o).jog.active = none := by
  unfold State.endJog
  split
  · next h => exact h
  · rfl

/-- The setting of the latch writes the points, the engines, the groups, the jog slot, the latch and the attention
unit alone; it leaves the latch set and the STOP flag set. -/
theorem setLatch_eq (s : State) :
    ∃ x l g j a, s.setLatch = { s with points := x, links := l, groups := g, jog := j, stop := true, attention := a }
      ∧ a.isSet .stop = true := by
  obtain ⟨g, a, e⟩ := State.claimAll_eq { s with stop := true } .stop
  obtain ⟨x, j, b, f⟩ := State.endJog_eq (State.claimAll { s with stop := true } .stop) .stop
  refine ⟨x, s.links.mapAll fun _ e => e.stopNotice, g, j, { b with flags := insertBit b.flags 0 }, ?_, ?_⟩
  · unfold State.setLatch
    dsimp only
    rw [f, e]
    rfl
  · simp only [Attention.isSet, insertBit, Flag.bit]
    simp

end State

end Machine

end Sys2Proof
end

