-- ==== Sys2Proof/Laws/Judged.lean ====
section
/-! SUPPORT. What a judgement may change, said once for each operation of the monitor, the group engine and the permit
unit: each keeps everything that `State.Judged` names. -/

namespace Sys2Proof.Machine.State.Judged

theorem refl (s : State) : s.Judged s where
  bodies := rfl
  plan := rfl
  links := rfl
  stop := rfl
  lines := rfl
  pins := rfl
  limits := rfl
  limitsLock := rfl
  port := rfl
  phase := rfl
  pending := rfl
  points _ := rfl
  constraints _ := rfl
  members _ := rfl

theorem trans {s t u : State} (h : s.Judged t) (k : t.Judged u) : s.Judged u where
  bodies := k.bodies.trans h.bodies
  plan := k.plan.trans h.plan
  links := k.links.trans h.links
  stop := k.stop.trans h.stop
  lines := k.lines.trans h.lines
  pins := k.pins.trans h.pins
  limits := k.limits.trans h.limits
  limitsLock := k.limitsLock.trans h.limitsLock
  port := k.port.trans h.port
  phase := k.phase.trans h.phase
  pending := k.pending.trans h.pending
  points p := by
    have a := h.points p
    have b := k.points p
    rw [b, a]
  constraints c := (k.constraints c).trans (h.constraints c)
  members g := (k.members g).trans (h.members g)

/-- A judgement that leaves the points, the constraints and the groups' members. -/
theorem of_fields {s t : State} (points : t.points = s.points) (constraints : t.constraints = s.constraints)
    (members : ∀ g, (t.group g).members = (s.group g).members) (bodies : t.bodies = s.bodies) (plan : t.plan = s.plan)
    (links : t.links = s.links) (stop : t.stop = s.stop) (lines : t.lines = s.lines) (pins : t.pins = s.pins)
    (limits : t.limits = s.limits) (limitsLock : t.limitsLock = s.limitsLock) (port : t.port = s.port)
    (phase : t.phase = s.phase) (pending : t.pending = s.pending) : s.Judged t where
  bodies := bodies
  plan := plan
  links := links
  stop := stop
  lines := lines
  pins := pins
  limits := limits
  limitsLock := limitsLock
  port := port
  phase := phase
  pending := pending
  points p := by
    have e : t.point p = s.point p := by simp only [State.point, points]
    rw [e]
  constraints c := by simp only [State.constraint, constraints]
  members := members

theorem raiseFlag (s : State) (f : Flag) : s.Judged (s.raiseFlag f) :=
  of_fields rfl rfl (fun _ => rfl) rfl rfl rfl rfl rfl rfl rfl rfl rfl rfl rfl

theorem choices (s : State) (n : Nat) : s.Judged { s with choices := n } :=
  of_fields rfl rfl (fun _ => rfl) rfl rfl rfl rfl rfl rfl rfl rfl rfl rfl rfl

theorem setSkew (s : State) (b : BodyId) (x : Bool) : s.Judged (s.setSkew b x) :=
  of_fields rfl rfl (fun _ => rfl) rfl rfl rfl rfl rfl rfl rfl rfl rfl rfl rfl

/-- A group record written with its members kept. -/
theorem setGroup (s : State) (g : GroupId) (x : Group) (h : x.members = (s.group g).members) :
    s.Judged (s.setGroup g x) :=
  of_fields rfl rfl (fun k => by
    by_cases e : g = k
    · subst e; rw [group_setGroup_self]; exact h
    · rw [group_setGroup_of_ne _ e]) rfl rfl rfl rfl rfl rfl rfl rfl rfl rfl rfl

/-- Point records rewritten in their conditions and motion fields alone. -/
theorem mapPoints (s : State) (f : PointId → Point → Point)
    (h : ∀ p x, f p x = { x with
      conditions := (f p x).conditions, target := (f p x).target
      arrived := (f p x).arrived, followHeld := (f p x).followHeld }) : s.Judged (s.mapPoints f) where
  bodies := rfl
  plan := rfl
  links := rfl
  stop := rfl
  lines := rfl
  pins := rfl
  limits := rfl
  limitsLock := rfl
  port := rfl
  phase := rfl
  pending := rfl
  points p := by rw [point_mapPoints]; exact h p (s.point p)
  constraints _ := rfl
  members _ := rfl

/-- One point record written in its conditions and motion fields alone. -/
theorem setPoint (s : State) (p : PointId) (x : Point)
    (h : x = { s.point p with
      conditions := x.conditions, target := x.target, arrived := x.arrived, followHeld := x.followHeld }) :
    s.Judged (s.setPoint p x) where
  bodies := rfl
  plan := rfl
  links := rfl
  stop := rfl
  lines := rfl
  pins := rfl
  limits := rfl
  limitsLock := rfl
  port := rfl
  phase := rfl
  pending := rfl
  points q := by
    by_cases e : p = q
    · subst e; rw [point_setPoint_self]; exact h
    · rw [point_setPoint_of_ne _ e]
  constraints _ := rfl
  members _ := rfl

/-- One constraint record written in its state and last value alone. -/
theorem setConstraint (s : State) (c : ConstraintId) (x : Constraint) (st : ConstraintState) (v : Option Int)
    (h : s.constraint c = some x) : s.Judged (s.setConstraint c (some { x with state := st, last := v })) where
  bodies := rfl
  plan := rfl
  links := rfl
  stop := rfl
  lines := rfl
  pins := rfl
  limits := rfl
  limitsLock := rfl
  port := rfl
  phase := rfl
  pending := rfl
  points _ := rfl
  constraints d := by
    by_cases e : c = d
    · subst e; rw [constraint_setConstraint_self, h]; rfl
    · rw [constraint_setConstraint_of_ne _ e]
  members _ := rfl

/-- A fold of judgements is a judgement. -/
theorem foldl {α : Type} (f : State → α → State) (h : ∀ (s : State) (a : α), s.Judged (f s a)) (l : List α) (s : State) :
    s.Judged (l.foldl f s) := by
  induction l generalizing s with
  | nil => exact refl s
  | cons a l ih => exact (h s a).trans (ih (f s a))

/-! ### Claims and notices -/

theorem claim (s : State) (g : GroupId) (c : HoldCause) : s.Judged (s.claim g c) := by
  unfold State.claim
  dsimp only
  split
  · exact (setGroup s g _ (by rfl)).trans (raiseFlag _ _)
  · exact (setGroup s g _ (by rfl)).trans (raiseFlag _ _)
  · exact setGroup s g _ (by rfl)
  · exact refl s
  · exact refl s
  · exact refl s

theorem claimOn (s : State) (g : Option GroupId) (c : HoldCause) : s.Judged (s.claimOn g c) := by
  cases g with
  | none => exact refl s
  | some g => exact claim s g c

theorem claimAll (s : State) (c : HoldCause) : s.Judged (s.claimAll c) :=
  foldl _ (fun t g => claim t g c) _ s

theorem claimGroups (s : State) (gs : List GroupId) (c : HoldCause) : s.Judged (s.claimGroups gs c) :=
  foldl _ (fun t g => claim t g c) _ s

theorem endJog (s : State) (o : JogOutcome) : s.Judged (s.endJog o) := by
  unfold State.endJog
  split
  · exact refl s
  · next j _ =>
    have a : s.Judged { s with jog := ⟨none, o, some j.point⟩ } :=
      of_fields rfl rfl (fun _ => rfl) rfl rfl rfl rfl rfl rfl rfl rfl rfl rfl rfl
    exact (a.trans (setPoint _ _ _ rfl)).trans (raiseFlag _ _)

theorem jogNotice (s : State) (p : PointId) (o : JogOutcome) : s.Judged (s.jogNotice p o) := by
  unfold State.jogNotice
  split
  · split
    · exact endJog s o
    · exact refl s
  · exact refl s

/-! ### The monitor -/

theorem noticeTerms (s : State) (t : Terms) : s.Judged (s.noticeTerms t) := by
  unfold State.noticeTerms
  split
  · split
    · exact endJog s _
    · exact refl s
  · exact refl s

theorem enterState (s : State) (t : Terms) (st : ConstraintState) : s.Judged (s.enterState t st) := by
  cases st with
  | idle => exact refl s
  | clear => exact refl s
  | warn => exact (raiseFlag s _).trans (noticeTerms _ _)
  | breach => exact ((raiseFlag s _).trans (claimGroups _ _ _)).trans (noticeTerms _ _)
  | blind => exact ((raiseFlag s _).trans (claimGroups _ _ _)).trans (noticeTerms _ _)

theorem evaluate (s : State) (c : ConstraintId) : s.Judged (s.evaluate c) := by
  unfold State.evaluate
  split
  · exact refl s
  · next x hx =>
    split
    · exact refl s
    · dsimp only
      split
      · exact setConstraint s c x _ _ hx
      · exact (setConstraint s c x _ _ hx).trans (enterState _ _ _)

theorem evaluateIndex (s : State) (p : PointId) : s.Judged (s.evaluateIndex p) := by
  unfold State.evaluateIndex
  split
  · exact foldl _ evaluate _ s
  · exact refl s

theorem evaluateAll (s : State) : s.Judged s.evaluateAll := foldl _ evaluate _ s

theorem judgeCondition (s : State) (p : PointId) (c : Condition) (present : Bool) :
    s.Judged (s.judgeCondition p c present) := by
  unfold State.judgeCondition
  dsimp only
  have a : s.Judged (s.setPoint p ((s.point p).setCondition c present)) := setPoint s p _ rfl
  split
  · refine ((a.trans (claimOn _ (s.point p).group c.cause)).trans ?_).trans (jogNotice _ _ _)
    split
    · exact raiseFlag _ _
    · exact refl _
  · exact a

theorem judgeConditions (s : State) (p : PointId) (permit : Permit) : s.Judged (s.judgeConditions p permit) :=
  foldl _ (fun t c => judgeCondition t p c _) _ s

theorem judgeOverload (s : State) (p : PointId) : s.Judged (s.judgeOverload p) := judgeCondition s p _ _

theorem judgeSkew (s : State) (b : BodyId) : s.Judged (s.judgeSkew b) := by
  unfold State.judgeSkew
  split
  · exact setSkew s b _
  · dsimp only
    split
    · exact ((setSkew s b _).trans (raiseFlag _ _)).trans (claimOn _ _ _)
    · exact setSkew s b _

theorem judgeSkewOf (s : State) (p : PointId) : s.Judged (s.judgeSkewOf p) := by
  unfold State.judgeSkewOf
  split
  · exact judgeSkew s _
  · exact refl s

/-! ### The group engine and the permit unit -/

theorem startStage (s : State) (g : GroupId) : s.Judged (s.startStage g) := by
  unfold State.startStage
  split
  · exact refl s
  · dsimp only
    refine (mapPoints s _ fun p x => ?_).trans (setGroup _ _ _ (by rfl))
    split <;> rfl

theorem completeStage (s : State) (g : GroupId) : s.Judged (s.completeStage g) := by
  unfold State.completeStage
  dsimp only
  split
  · exact refl s
  · have a (x : Group) (h : x.members = (s.group g).members) (f : Flag) : s.Judged ((s.setGroup g x).raiseFlag f) :=
      (setGroup s g x h).trans (raiseFlag _ _)
    split
    · exact ((a _ (by rfl) _).trans (setGroup _ _ _ (by rfl))).trans (raiseFlag _ _)
    · split
      · exact ((a _ (by rfl) _).trans (setGroup _ _ _ (by rfl))).trans (raiseFlag _ _)
      · exact (a _ (by rfl) _).trans (startStage _ _)

theorem evalFollow (s : State) (g : GroupId) : s.Judged (s.evalFollow g) := by
  unfold State.evalFollow
  split
  · exact refl s
  · refine mapPoints s _ fun p x => ?_
    split <;> rfl

theorem judgeArrival (s : State) (g : GroupId) (p : PointId) : s.Judged (s.judgeArrival g p) := by
  unfold State.judgeArrival
  split
  · exact setPoint s p _ rfl
  · exact refl s

theorem recordArrival (s : State) (g : GroupId) (p : PointId) : s.Judged (s.recordArrival g p) := by
  unfold State.recordArrival
  split
  · exact setPoint s p _ rfl
  · exact refl s

theorem groupTakes (s : State) (p : PointId) : s.Judged (s.groupTakes p) := by
  unfold State.groupTakes
  split
  · exact refl s
  · next g _ =>
    split
    · have a : s.Judged ((s.judgeArrival g p).evalFollow g) := (judgeArrival s g p).trans (evalFollow _ g)
      dsimp only
      split
      · exact a.trans (completeStage _ _)
      · exact a
    · exact recordArrival s _ p
    all_goals exact refl s

theorem jogTakes (s : State) (p : PointId) : s.Judged (s.jogTakes p) := by
  unfold State.jogTakes
  split
  · exact refl s
  · split
    · exact endJog s _
    · exact refl s

/-- What the three blocks do with a stored report, in whichever order. -/
theorem handOn (s : State) (p : PointId) (permit : Permit) : s.Judged (s.handOn p permit) := by
  have m1 (t : State) : t.Judged (t.monitorConditionsFirst p permit) :=
    ((judgeConditions t p permit).trans (evaluateIndex _ p)).trans (judgeSkewOf _ p)
  have m2 (t : State) : t.Judged (t.monitorConstraintsFirst p permit) :=
    ((evaluateIndex t p).trans (judgeConditions _ p permit)).trans (judgeSkewOf _ p)
  have g (t : State) : t.Judged ((t.groupTakes p).jogTakes p) := (groupTakes t p).trans (jogTakes _ p)
  refine chooseOrder_ind (motive := fun t => s.Judged t) _ _ (fun t n h => h.trans (choices t n)) ?_ ?_
  · exact (m1 s).trans (g _)
  · intro t h
    simp only [List.mem_cons, List.not_mem_nil, or_false] at h
    rcases h with rfl | rfl | rfl
    · exact (m2 s).trans (g _)
    · exact (g s).trans (m1 _)
    · exact (g s).trans (m2 _)

/-- A derating written on a list of points: after the write, judgements alone (R41, R104). -/
theorem writeDerating (s : State) (set : List PointId) (d : Nat) :
    (s.mapPoints fun p x => if set.contains p then { x with derated := some d } else x).Judged
      (s.writeDerating set (some d)) :=
  foldl _ judgeOverload _ _

/-- The loss of a LIVE point: after its health and good run, judgements alone (R81). -/
theorem lose (s : State) (l : LinkId) (p : PointId) :
    ((s.setPoint p { s.point p with health := .lost }).setGoodRun l p 0).Judged (s.lose l p) := by
  unfold State.lose
  dsimp only
  have a : ∀ t : State, t.Judged ((t.raiseFlag .lost).claimOn (t.point p).group .lost) := fun t =>
    (raiseFlag t _).trans (claimOn _ _ _)
  refine chooseOrder_ind (motive := fun t => State.Judged _ t) _ _ (fun t n h => h.trans (choices t n)) ?_ ?_
  · exact ((a _).trans (evaluateIndex _ p)).trans (jogNotice _ _ _)
  · intro t h
    simp only [List.mem_cons, List.not_mem_nil, or_false] at h
    subst h
    exact ((a _).trans (jogNotice _ _ _)).trans (evaluateIndex _ p)

end Sys2Proof.Machine.State.Judged
end

