-- ==== Sys2Proof/Laws/Records.lean ====
section
/-! SUPPORT. What single operations do to the records, said once: claims on a moving group, the corners of a body, the
build of a compilation, the plan's fall, an evaluation and the other constraints. -/

namespace Sys2Proof.Machine

/-! ### Masks -/

/-- Setting a bit leaves every other bit. -/
theorem getLsbD_insertBit_of_ne {n : Nat} (m : BitVec n) {i j : Nat} (h : i ≠ j) :
    (insertBit m i).getLsbD j = m.getLsbD j := by simp [insertBit, h]

/-- Clearing a bit leaves every other bit. -/
theorem getLsbD_eraseBit_of_ne {n : Nat} (m : BitVec n) {i j : Nat} (h : i ≠ j) :
    (eraseBit m i).getLsbD j = m.getLsbD j := by
  by_cases hj : j < n
  · simp [eraseBit, hj]
    intro _
    exact fun e => h e.symm
  · simp [eraseBit, BitVec.getLsbD_of_ge _ _ (Nat.le_of_not_lt hj)]

/-- A bit of a mask, set. -/
theorem getLsbD_insertBit_self {n : Nat} (m : BitVec n) {i : Nat} (h : i < n) : (insertBit m i).getLsbD i = true := by
  simp [insertBit, h]

/-- A cause's bit lies in the mask of causes. -/
theorem HoldCause.bit_lt (c : HoldCause) : c.bit < 13 := by cases c <;> decide

/-- A flag's bit lies in the mask of flags. -/
theorem Flag.bit_lt (f : Flag) : f.bit < 26 := by
  cases f <;> simp only [Flag.bit] <;> omega

namespace State

variable (s : State)

/-- A flag raised is set. -/
theorem isSet_raiseFlag (f : Flag) : (s.raiseFlag f).attention.isSet f = true :=
  getLsbD_insertBit_self _ f.bit_lt

/-- A flag set stays set when another is raised. -/
theorem isSet_raiseFlag_of_isSet {f : Flag} (h : s.attention.isSet f = true) (g : Flag) :
    (s.raiseFlag g).attention.isSet f = true := by
  simp only [State.raiseFlag, Attention.isSet, insertBit] at *
  simp [h]

/-- A flag set stays set through a claim. -/
theorem isSet_claim_of_isSet {f : Flag} (h : s.attention.isSet f = true) (g : GroupId) (c : HoldCause) :
    (s.claim g c).attention.isSet f = true := by
  unfold State.claim
  dsimp only
  split
  · exact isSet_raiseFlag_of_isSet _ h _
  · exact isSet_raiseFlag_of_isSet _ h _
  all_goals exact h

/-- A flag set stays set through the end of a jog. -/
theorem isSet_endJog_of_isSet {f : Flag} (h : s.attention.isSet f = true) (o : JogOutcome) :
    (s.endJog o).attention.isSet f = true := by
  unfold State.endJog
  split
  · exact h
  · exact isSet_raiseFlag_of_isSet _ h _

/-- A claim on a moving group holds it with the claim's cause (R129). -/
theorem claim_moving (g : GroupId) (c : HoldCause) (h : (s.group g).state = .staging ∨ (s.group g).state = .gap) :
    ((s.claim g c).group g).state = .holding ∧ ((s.claim g c).group g).hasCause c = true := by
  have e (t : State) (f : Flag) : (t.raiseFlag f).group g = t.group g := rfl
  unfold State.claim
  rcases h with h | h <;> simp only [h] <;> rw [e, group_setGroup_self] <;>
    exact ⟨rfl, getLsbD_insertBit_self _ c.bit_lt⟩

/-- The end of a jog makes its point's target absent and leaves every other point (R149). -/
theorem point_endJog {j : ActiveJog} (h : s.jog.active = some j) (o : JogOutcome) (p : PointId) :
    (s.endJog o).point p = if j.point = p then { s.point p with target := none } else s.point p := by
  unfold State.endJog
  rw [h]
  show State.point (State.setPoint _ _ _) p = _
  split
  · next e => subst e; rw [point_setPoint_self]; rfl
  · next e => rw [point_setPoint_of_ne _ e]; rfl

/-- The end of a jog records its outcome and point (R149). -/
theorem jog_endJog {j : ActiveJog} (h : s.jog.active = some j) (o : JogOutcome) :
    (s.endJog o).jog = ⟨none, o, some j.point⟩ := by
  unfold State.endJog
  rw [h]
  rfl

/-! ### The plan's fall (R53) -/

theorem planTo_of_not_compiled (h : s.plan.state ≠ .compiled) (st : PlanState) :
    s.planTo st = { s with plan := { s.plan with state := st } } := by simp [State.planTo, h]

theorem point_planTo_of_compiled (h : s.plan.state = .compiled) (st : PlanState) (p : PointId) :
    (s.planTo st).point p = (s.point p).fall := by simp [State.planTo, h, State.point]

theorem constraint_planTo_of_compiled (h : s.plan.state = .compiled) (st : PlanState) (c : ConstraintId) :
    (s.planTo st).constraint c = (s.constraint c).map Constraint.fall := by
  simp [State.planTo, h, State.constraint]

theorem planTo_eq (st : PlanState) :
    s.planTo st = { s with
      plan := { s.plan with state := st }, points := (s.planTo st).points
      constraints := (s.planTo st).constraints } := by
  unfold State.planTo
  dsimp only
  split <;> rfl

end State

/-! ### The corners of a body (R3) -/

theorem Body.cornerOf_eq_some (r : Body) {p : PointId} {c : Corner} (h : r.cornerOf p = some c) : r.corner c = p := by
  have := List.find?_some h
  simpa using this

theorem Body.cornerOf_corner (r : Body) (h : r.corners.Nodup) (c : Corner) : r.cornerOf (r.corner c) = some c := by
  simp only [Body.corners, List.nodup_cons, List.mem_cons, List.not_mem_nil, or_false, not_or] at h
  obtain ⟨⟨h1, h2, h3⟩, ⟨h4, h5⟩, h6, -⟩ := h
  unfold Body.cornerOf allCorners
  cases c <;> simp [List.find?, Body.corner, beq_eq_false_iff_ne.2 h1, beq_eq_false_iff_ne.2 h2,
    beq_eq_false_iff_ne.2 h3, beq_eq_false_iff_ne.2 h4, beq_eq_false_iff_ne.2 h5, beq_eq_false_iff_ne.2 h6]

theorem Body.cornerOf_eq_none (r : Body) {p : PointId} (h : p ∉ r.corners) : r.cornerOf p = none := by
  simp only [Body.corners, List.mem_cons, List.not_mem_nil, or_false, not_or] at h
  obtain ⟨h1, h2, h3, h4⟩ := h
  unfold Body.cornerOf allCorners
  simp [List.find?, Body.corner, beq_eq_false_iff_ne.2 (Ne.symm h1), beq_eq_false_iff_ne.2 (Ne.symm h2),
    beq_eq_false_iff_ne.2 (Ne.symm h3), beq_eq_false_iff_ne.2 (Ne.symm h4)]

namespace State

/-- A corner of the body written names the body and its corner. -/
theorem point_writeBody_corner (s : State) (b : BodyId) (r : Body) (h : r.corners.Nodup) (c : Corner) :
    (s.writeBody b (some r)).point (r.corner c) = { s.point (r.corner c) with seat := some ⟨b, c⟩ } := by
  unfold State.writeBody State.seatBody
  rw [point_mapPoints]
  simp only [Option.bind_some, r.cornerOf_corner h]
  rfl

/-- A point that is no corner of the body written names it no more. -/
theorem point_writeBody_of_not_corner (s : State) (b : BodyId) (x : Option Body) (p : PointId)
    (h : ∀ r, x = some r → p ∉ r.corners) :
    (s.writeBody b x).point p =
      if (s.point p).seat.any (·.body == b) then { s.point p with seat := none } else s.point p := by
  have e : (x.bind fun r => r.cornerOf p) = none := by
    cases x with
    | none => rfl
    | some r => exact r.cornerOf_eq_none (h r rfl)
  unfold State.writeBody State.seatBody
  rw [point_mapPoints, e]
  rfl

/-! ### The build of a compilation (R61, R62) -/

theorem lowestEmpty_eq_some (s : State) {c : ConstraintId} (h : s.lowestEmpty = some c) : s.constraint c = none := by
  have := List.find?_some h
  simpa using this

/-- Creating records keeps every record there is, and writes the constraint table alone. -/
theorem createAll_eq (b : BodyId) (l : List Constraint) : ∀ s t : State, s.createAll b l = .ok t →
    t = { s with constraints := t.constraints } ∧ ∀ c x, s.constraint c = some x → t.constraint c = some x := by
  induction l with
  | nil => intro s t h; cases h; exact ⟨rfl, fun _ _ h => h⟩
  | cons a l ih =>
    intro s t h
    unfold State.createAll at h
    split at h
    · cases h
    · next i hi =>
      obtain ⟨e, k⟩ := ih _ _ h
      refine ⟨e, fun c x hx => k c x ?_⟩
      rw [constraint_setConstraint_of_ne]
      · exact hx
      · rintro rfl
        rw [lowestEmpty_eq_some s hi] at hx
        cases hx

theorem buildAll_eq (j w : Nat) (l : List (BodyId × Body)) : ∀ s t : State, s.buildAll j w l = .ok t →
    t = { s with constraints := t.constraints } ∧ ∀ c x, s.constraint c = some x → t.constraint c = some x := by
  induction l with
  | nil => intro s t h; cases h; exact ⟨rfl, fun _ _ h => h⟩
  | cons a l ih =>
    intro s t h
    unfold State.buildAll at h
    split at h
    · cases h
    · next u hu =>
      obtain ⟨e, k⟩ := ih _ _ h
      obtain ⟨e1, k1⟩ := createAll_eq _ _ _ _ hu
      refine ⟨?_, fun c x hx => k c x (k1 c x hx)⟩
      rw [e1] at e
      exact e

/-! ### Evaluations (R95, R97) -/

/-- The effects of entering a state leave the constraint table. -/
theorem constraints_enterState (s : State) (tm : Terms) (st : ConstraintState) :
    (s.enterState tm st).constraints = s.constraints := by
  have n (u : State) : (u.noticeTerms tm).constraints = u.constraints := by
    unfold State.noticeTerms
    split
    · split
      · obtain ⟨x, j, a, e⟩ := u.endJog_eq .limit
        rw [e]
      · rfl
    · rfl
  have g (u : State) (gs : List GroupId) (k : HoldCause) : (u.claimGroups gs k).constraints = u.constraints := by
    obtain ⟨x, a, e⟩ := u.claimGroups_eq gs k
    rw [e]
  cases st <;> simp only [State.enterState, n, g] <;> rfl

/-- An evaluation leaves every other constraint record. -/
theorem constraint_evaluate_of_ne (s : State) {c d : ConstraintId} (h : c ≠ d) :
    (s.evaluate c).constraint d = s.constraint d := by
  unfold State.evaluate
  split
  · rfl
  · split
    · rfl
    · dsimp only
      split
      · exact constraint_setConstraint_of_ne _ h _
      · unfold State.constraint
        rw [constraints_enterState]
        exact constraint_setConstraint_of_ne _ h _

end State

end Sys2Proof.Machine
end

