-- ==== Sys2Proof/Laws/Claims.lean ====
section
/-! SUPPORT. What claims, flags and the end of a jog do, said once for every group and every flag; and the one lemma by
which a refused request is shown. -/

namespace Sys2Proof.Machine

/-- Distinct flags have distinct bits (9.5.4). -/
theorem Flag.bit_inj {f g : Flag} (h : f.bit = g.bit) : f = g := by
  cases f <;> cases g <;> simp only [Flag.bit] at h <;> first | rfl | (exfalso; omega) | skip
  all_goals exact congrArg _ (Fin.ext (by omega))

namespace State

variable (s : State)

/-- After a flag is raised, the flags set are that one and those set before (R191). -/
theorem isSet_raiseFlag_iff (f g : Flag) :
    (s.raiseFlag f).attention.isSet g = true ↔ s.attention.isSet g = true ∨ g = f := by
  by_cases h : g = f
  · subst h
    simp [isSet_raiseFlag]
  · have e : (s.raiseFlag f).attention.isSet g = s.attention.isSet g :=
      getLsbD_insertBit_of_ne _ fun hb => h (Flag.bit_inj hb).symm
    simp [e, h]

/-- The claimed group's record (R129). -/
theorem group_claim_self (g : GroupId) (c : HoldCause) :
    (s.claim g c).group g =
      match (s.group g).state with
      | .staging =>
        { s.group g with
          state := .holding, heldFrom := some .staging, causes := insertBit (s.group g).causes c.bit }
      | .gap =>
        { s.group g with state := .holding, heldFrom := some .gap, causes := insertBit (s.group g).causes c.bit }
      | .holding => { s.group g with causes := insertBit (s.group g).causes c.bit }
      | .free => s.group g
      | .formed => s.group g
      | .arrived => s.group g := by
  have e (t : State) (f : Flag) : (t.raiseFlag f).group g = t.group g := rfl
  unfold State.claim
  cases h : (s.group g).state <;> simp [e, h]

/-- What a claim makes of a group rests on that group's record alone. -/
theorem group_claim_congr {s t : State} {g : GroupId} (h : s.group g = t.group g) (c : HoldCause) :
    (s.claim g c).group g = (t.claim g c).group g := by
  rw [group_claim_self, group_claim_self, h]

/-- After a claim, the flags set are those set before, and HELD where the group was moving or at a gap (R129). -/
theorem isSet_claim_iff (g : GroupId) (c : HoldCause) (f : Flag) :
    (s.claim g c).attention.isSet f = true ↔
      s.attention.isSet f = true ∨ (f = .held g ∧ ((s.group g).state = .staging ∨ (s.group g).state = .gap)) := by
  unfold State.claim
  dsimp only
  split <;> rename_i h <;> simp [isSet_raiseFlag_iff, h]

/-- Claims on several groups act on each of them alone (R129). -/
theorem group_foldl_claim (c : HoldCause) (gs : List GroupId) (hn : gs.Nodup) : ∀ (s : State) (g : GroupId),
    (gs.foldl (fun t h => t.claim h c) s).group g = if g ∈ gs then (s.claim g c).group g else s.group g := by
  induction gs with
  | nil => intro s g; rfl
  | cons h l ih =>
    intro s g
    obtain ⟨h1, h2⟩ := List.nodup_cons.1 hn
    rw [List.foldl_cons, ih h2]
    by_cases hg : g = h
    · subst hg
      simp [h1]
    · have e := group_claim_of_ne s (Ne.symm hg) c
      simp only [List.mem_cons, hg, false_or, e]
      split
      · exact group_claim_congr e c
      · rfl

/-- After claims on several groups, the flags set are those set before, and HELD of each that was moving or at a gap. -/
theorem isSet_foldl_claim_iff (c : HoldCause) (f : Flag) (gs : List GroupId) (hn : gs.Nodup) : ∀ s : State,
    (gs.foldl (fun t h => t.claim h c) s).attention.isSet f = true ↔
      s.attention.isSet f = true
        ∨ ∃ g ∈ gs, f = .held g ∧ ((s.group g).state = .staging ∨ (s.group g).state = .gap) := by
  induction gs with
  | nil => intro s; simp
  | cons h l ih =>
    intro s
    obtain ⟨h1, h2⟩ := List.nodup_cons.1 hn
    simp only [List.foldl_cons, ih h2, isSet_claim_iff, List.mem_cons, exists_eq_or_imp, or_assoc]
    refine or_congr_right (or_congr_right (exists_congr fun g => and_congr_right fun hg => ?_))
    rw [group_claim_of_ne s (by rintro rfl; exact h1 hg) c]

/-- A claim on every group acts on each as a claim on it alone (R129). -/
theorem group_claimAll (c : HoldCause) (g : GroupId) : (s.claimAll c).group g = (s.claim g c).group g :=
  (group_foldl_claim c (ids 4) (List.nodup_finRange 4) s g).trans (if_pos (mem_ids g))

/-- The groups that the terms name (R98). -/
theorem mem_termGroups (t : Terms) (g : GroupId) :
    g ∈ s.termGroups t ↔ ∃ p ∈ t.points, (s.point p).group = some g := by
  simp [State.termGroups]

/-- The groups that the terms name, each once. -/
theorem nodup_termGroups (t : Terms) : (s.termGroups t).Nodup := (List.nodup_finRange 4).filter _

/-- After the end of a jog, the flags set are those set before, and JOG where one was ACTIVE (R149). -/
theorem isSet_endJog_iff (o : JogOutcome) (f : Flag) :
    (s.endJog o).attention.isSet f = true ↔
      s.attention.isSet f = true ∨ (f = .jog ∧ s.jog.active.isSome = true) := by
  unfold State.endJog
  cases s.jog.active with
  | none => simp
  | some j => simp [isSet_raiseFlag_iff]

/-- The end of a jog changes no group. -/
theorem groups_endJog (o : JogOutcome) : (s.endJog o).groups = s.groups := by
  unfold State.endJog
  split <;> rfl

/-- A request that its act refuses is answered with that refusal, and nothing else changes (R174, R177). -/
theorem request_refused {α : Type} {s : State} (h : s.phase = .running) (code : Byte) (o : α)
    (act : α → State → Answer × State) {st : Status} {pl : List Byte} (ha : act o s = (⟨st, pl⟩, s)) :
    s.request code (.takes o) act = s.answered s code st pl := by
  simp [State.request, h, ha, State.answered]

end State

end Sys2Proof.Machine
end

