-- ==== Sys2Proof/Laws/Checks.lean ====
section
/-! SUPPORT. What the range checks and the searches of the requests amount to, said once: operands in range, the bodies
in their order, lines of a function, and the check and build phases of a compilation. -/

namespace Sys2Proof.Machine

/-! ### Operands -/

/-- The check of distinctness is distinctness. -/
theorem distinct_eq_true_iff (l : List Nat) : distinct l = true ↔ l.Nodup := by
  induction l with
  | nil => simp [distinct]
  | cons a l ih => simp [distinct, ih]

/-- A warn percent operand is in range (R67, R69). -/
theorem warnOk_eq_true_iff (o : OrDefault) : warnOk o = true ↔ ∀ n, o = .value n → 50 ≤ n ∧ n ≤ 100 := by
  cases o <;> simp [warnOk, within]

/-- A body limit operand is in range (R5, R10). -/
theorem bodyLimitOk_eq_true_iff (o : OrDefault) : bodyLimitOk o = true ↔ ∀ n, o = .value n → 1 ≤ n ∧ n ≤ 2000 := by
  cases o <;> simp [bodyLimitOk, within]

/-- The numbers of ids name those ids. -/
theorem idList?_map_val (n : Nat) (l : List (Fin n)) : idList? n (l.map (·.val)) = some l := by
  induction l with
  | nil => rfl
  | cons a l ih => simp [idList?, ih, fin?_val]

/-- The numbers of a column address in range name it (R25). -/
theorem address?_val (a : Address) (h : 1 ≤ a.node.val) : address? ⟨a.link.val, a.node.val⟩ = some a := by
  have := a.node.isLt
  simp [address?, AddressOp.ok, within, h, fin?_val]
  omega

/-- The numbers of the terms of a record name them. -/
theorem terms?_map_val (t : Terms) : terms? (t.points.map (·.val)) = some t := by
  cases t <;> simp [Terms.points, terms?, fin?_val]

/-- A list of distinct ids is no longer than their table. -/
theorem length_le_of_nodup {n : Nat} {l : List (Fin n)} (h : l.Nodup) : l.length ≤ n := by
  simpa using h.length_le_card

/-! ### Searches -/

namespace State

variable (s : State)

/-- No line of a function is asserted exactly where the search for one fails (R159). -/
theorem assertedLine_eq_none_iff (f : LineFunction) : s.assertedLine f = none ↔ s.NoneAsserted f := by
  simp [State.assertedLine, State.NoneAsserted, List.find?_eq_none]

/-- No group is in use exactly where all are FREE. -/
theorem busyGroup_eq_none_iff : s.busyGroup = none ↔ s.AllFree := by
  simp [State.busyGroup, State.AllFree, List.find?_eq_none]

/-- The table of constraints is full exactly where no id is EMPTY (R67). -/
theorem lowestEmpty_eq_none_iff : s.lowestEmpty = none ↔ ∀ c, (s.constraint c).isSome := by
  simp [State.lowestEmpty, List.find?_eq_none, Option.isSome_iff_ne_none]

/-- Where positions are distinct, the body at a position is the one that stands there (R2). -/
theorem bodyAt_eq_some_iff (h : ∀ b c x y, s.body b = some x → s.body c = some y → x.position = y.position → b = c)
    (n : Nat) (b : BodyId) (x : Body) : s.bodyAt n = some (b, x) ↔ s.body b = some x ∧ x.position.val = n := by
  unfold State.bodyAt
  constructor
  · intro e
    obtain ⟨_, a, _, _, e, _⟩ := List.findSome?_eq_some_iff.1 e
    cases hb : s.body a with
    | none => simp [hb] at e
    | some y =>
      simp only [hb] at e
      split at e <;> simp_all
  · rintro ⟨h1, h2⟩
    cases hf : (ids 12).findSome? _ with
    | none =>
      have := List.findSome?_eq_none_iff.1 hf b (mem_ids b)
      simp [h1, h2] at this
    | some y =>
      obtain ⟨_, a, _, _, e, _⟩ := List.findSome?_eq_some_iff.1 hf
      cases hb : s.body a with
      | none => simp [hb] at e
      | some z =>
        simp only [hb] at e
        split at e
        · have := h a b z x hb h1 (Fin.ext (by omega))
          subst this
          simp_all
        · simp at e

/-- Where positions are distinct, the bodies in order are the DEFINED bodies (R2). -/
theorem mem_bodiesInOrder_iff
    (h : ∀ b c x y, s.body b = some x → s.body c = some y → x.position = y.position → b = c) (b : BodyId) (x : Body) :
    (b, x) ∈ s.bodiesInOrder ↔ s.body b = some x := by
  simp only [State.bodiesInOrder, List.mem_filterMap, mem_ids, true_and, bodyAt_eq_some_iff s h]
  exact ⟨fun ⟨_, e, _⟩ => e, fun e => ⟨x.position, e, rfl⟩⟩

/-- A point is a corner of a list of bodies exactly where one of them has it as a corner (R110). -/
theorem mem_cornersOf_iff (bs : List BodyId) (p : PointId) :
    p ∈ s.cornersOf bs ↔ ∃ b ∈ bs, ∃ x, s.body b = some x ∧ p ∈ x.corners := by
  simp only [State.cornersOf, List.mem_filter, mem_ids, true_and, List.any_eq_true]
  refine exists_congr fun b => and_congr_right fun _ => ?_
  cases s.body b <;> simp

/-! ### The phases of a compilation (R58 to R62) -/

/-- The first body whose check fails decides a build (R58, R59). -/
theorem build_of_checkBody {before after : List (BodyId × Body)} {y : BodyId × Body} {f : Failure}
    (h1 : s.bodiesInOrder = before ++ y :: after) (h2 : ∀ z ∈ before, s.checkBody z.1 z.2 = none)
    (h3 : s.checkBody y.1 y.2 = some f) (jointLimit warn : Nat) : s.build jointLimit warn = .error f := by
  have e : s.bodiesInOrder.findSome? (fun y => s.checkBody y.1 y.2) = some f :=
    List.findSome?_eq_some_iff.2 ⟨before, y, after, h1, h3, h2⟩
  simp [State.build, State.checkPhase, e]

/-- The check of a CUSTOM record fails exactly where one of its terms is in no body (R60). -/
theorem checkCustom_eq_none_iff (c : ConstraintId) :
    s.checkCustom c = none ↔ ∀ x, s.constraint c = some x → x.kind = .custom → ∀ p ∈ x.terms.points,
      (s.point p).seat ≠ none := by
  unfold State.checkCustom
  cases s.constraint c with
  | none => simp
  | some x => simp

/-- Where every check passes, the build phase decides (R58 to R62). -/
theorem build_of_checks (h1 : ∀ z ∈ s.bodiesInOrder, s.checkBody z.1 z.2 = none) (h2 : ∀ c, s.checkCustom c = none)
    (jointLimit warn : Nat) :
    s.build jointLimit warn =
      match s.buildAll jointLimit warn s.bodiesInOrder with
      | .error f => .error f
      | .ok t => t.writeIndexes := by
  have e1 : s.bodiesInOrder.findSome? (fun y => s.checkBody y.1 y.2) = none := List.findSome?_eq_none_iff.2 h1
  have e2 : (ids 128).findSome? s.checkCustom = none := List.findSome?_eq_none_iff.2 fun c _ => h2 c
  simp only [State.build, State.checkPhase, e1, e2]
  rfl

/-- The ids of a point's index are those of the records that have it as a term (R62). -/
theorem mem_indexOf_iff (p : PointId) (c : ConstraintId) :
    c ∈ s.indexOf p ↔ ∃ x, s.constraint c = some x ∧ p ∈ x.terms.points := by
  simp [State.indexOf, Option.any_eq_true]

/-- After a record is created at the lowest EMPTY id, the ids still EMPTY are the rest (R61). -/
theorem filter_isNone_setConstraint {c : ConstraintId} (h : s.lowestEmpty = some c) (x : Constraint) :
    ((ids 128).filter fun d => (s.constraint d).isNone) =
      c :: (ids 128).filter fun d => ((s.setConstraint c (some x)).constraint d).isNone := by
  have hs : (ids 128).find? (fun d => (s.constraint d).isNone) = some c := by
    simpa [State.lowestEmpty] using h
  obtain ⟨hc, before, after, hl, hb⟩ := List.find?_eq_some_iff_append.1 hs
  have hn : (before ++ c :: after).Nodup := hl ▸ List.nodup_finRange 128
  obtain ⟨_, hn2, hn3⟩ := List.nodup_append.1 hn
  have same (l : List ConstraintId) (hl : ∀ d ∈ l, d ≠ c) :
      l.filter (fun d => ((s.setConstraint c (some x)).constraint d).isNone) =
        l.filter fun d => (s.constraint d).isNone :=
    List.filter_congr fun d hd => by rw [constraint_setConstraint_of_ne s (Ne.symm (hl d hd))]
  have h1 : before.filter (fun d => (s.constraint d).isNone) = [] :=
    List.filter_eq_nil_iff.2 fun d hd => by simpa [Option.isSome_iff_ne_none] using hb d hd
  have h2 := same before fun d hd => hn3 d hd c (by simp)
  have h3 := same after fun d hd e => (List.nodup_cons.1 hn2).1 (e ▸ hd)
  rw [hl, List.filter_append, List.filter_append, h2, h1, List.filter_cons, List.filter_cons, h3]
  simp [hc]

end State

end Sys2Proof.Machine
end

