-- ==== Sys2Proof/Laws/Evaluations.lean ====
section
/-! SUPPORT. What evaluating a point's constraint index writes and claims, what follows for the loss of a point, and the
skew entries after a LINK-RESET. -/

namespace Sys2Proof.Machine

namespace State

/-! ### What a judgement leaves of the values judged (R47, R95) -/

namespace Judged

variable {s t : State}

theorem group_point (h : s.Judged t) (p : PointId) : (t.point p).group = (s.point p).group := by rw [h.points p]

theorem constraintValue (h : s.Judged t) (tm : Terms) : t.constraintValue tm = s.constraintValue tm := by
  have e (p : PointId) : (t.point p).lift = (s.point p).lift := by rw [h.points p]; rfl
  cases tm <;> simp only [State.constraintValue, e]

theorem anyTermLost (h : s.Judged t) (tm : Terms) : t.anyTermLost tm = s.anyTermLost tm := by
  have e (p : PointId) : (t.point p).health = (s.point p).health := by rw [h.points p]
  simp only [State.anyTermLost, e]

theorem index (h : s.Judged t) (p : PointId) : (t.point p).index = (s.point p).index := by rw [h.points p]

theorem judging (h : s.Judged t) : t.judging = s.judging := by simp only [State.judging, h.plan]

end Judged

/-! ### The records that evaluations write (R95, R96) -/

/-- A record after its evaluation: its last value and state from the value of its terms, where they have one (R95). -/
theorem constraint_evaluate_self (s : State) (c : ConstraintId) :
    (s.evaluate c).constraint c = (s.constraint c).map fun x =>
      match s.constraintValue x.terms with
      | none => x
      | some v => { x with state := judgeValue (s.anyTermLost x.terms) v x.limit x.warn, last := some v } := by
  unfold State.evaluate
  cases h : s.constraint c with
  | none => simp [h]
  | some x =>
    cases hv : s.constraintValue x.terms with
    | none => simp [h, hv]
    | some v =>
      simp only [hv, Option.map_some]
      split
      · simp
      · unfold State.constraint
        rw [constraints_enterState]
        simp [State.setConstraint]

/-- Each record of a list is left as one evaluation of it leaves it, every other record as it was (R96). -/
theorem constraint_foldl_evaluate (c : ConstraintId) (l : List ConstraintId) : ∀ s : State,
    (l.foldl State.evaluate s).constraint c = if c ∈ l then (s.evaluate c).constraint c else s.constraint c := by
  induction l with
  | nil => intro s; rfl
  | cons a l ih =>
    intro s
    have j := Judged.evaluate s a
    rw [List.foldl_cons, ih]
    by_cases ha : a = c
    · subst ha
      simp only [constraint_evaluate_self (s.evaluate a), constraint_evaluate_self s, j.constraintValue, j.anyTermLost,
        List.mem_cons, true_or, if_true, Option.map_map, ite_eq_right_iff]
      intro _
      congr 1
      funext x
      simp only [Function.comp]
      cases h : s.constraintValue x.terms <;> simp [h]
    · simp only [List.mem_cons, Ne.symm ha, false_or, constraint_evaluate_self (s.evaluate a), constraint_evaluate_self s,
        j.constraintValue, j.anyTermLost, constraint_evaluate_of_ne s ha]

theorem constraint_evaluateIndex (s : State) (p : PointId) (c : ConstraintId) :
    (s.evaluateIndex p).constraint c =
      if s.judging = true ∧ c ∈ (s.point p).index then (s.evaluate c).constraint c else s.constraint c := by
  unfold State.evaluateIndex
  split
  · next h => simp [h, constraint_foldl_evaluate]
  · next h => simp [h]

/-! ### Holds and flags only accumulate (R129, R191) -/

/-- Nothing is taken back: a flag set stays set, a cause recorded stays recorded, a group that takes claims still takes
them, HOLDING where it was HOLDING, and a FREE group stays FREE. -/
structure Accumulates (s t : State) : Prop where
  flag : ∀ f, s.attention.isSet f = true → t.attention.isSet f = true
  held : ∀ g, (s.group g).state = .holding → (t.group g).state = .holding
  cause : ∀ g k, (s.group g).hasCause k = true → (t.group g).hasCause k = true
  takes : ∀ g, ((s.group g).state = .staging ∨ (s.group g).state = .gap ∨ (s.group g).state = .holding) →
    ((t.group g).state = .staging ∨ (t.group g).state = .gap ∨ (t.group g).state = .holding)
  free : ∀ g, (s.group g).state = .free → (t.group g).state = .free

/-- A cause inserted keeps the others. -/
theorem hasCause_insert {x : Group} {k : HoldCause} (h : x.hasCause k = true) (c : HoldCause) :
    (insertBit x.causes c.bit).getLsbD k.bit = true := by
  by_cases e : c.bit = k.bit
  · rw [e]
    exact getLsbD_insertBit_self _ k.bit_lt
  · rw [getLsbD_insertBit_of_ne _ e]
    exact h

namespace Accumulates

variable {s t u : State}

theorem refl (s : State) : s.Accumulates s := ⟨fun _ h => h, fun _ h => h, fun _ _ h => h, fun _ h => h, fun _ h => h⟩

theorem trans (h : s.Accumulates t) (k : t.Accumulates u) : s.Accumulates u :=
  ⟨fun f a => k.flag f (h.flag f a), fun g a => k.held g (h.held g a), fun g c a => k.cause g c (h.cause g c a),
    fun g a => k.takes g (h.takes g a), fun g a => k.free g (h.free g a)⟩

theorem of_groups (hg : t.groups = s.groups) (hf : ∀ f, s.attention.isSet f = true → t.attention.isSet f = true) :
    s.Accumulates t := by
  have e (g : GroupId) : t.group g = s.group g := by simp only [State.group, hg]
  exact ⟨hf, fun g h => by rwa [e], fun g k h => by rwa [e], fun g h => by rwa [e], fun g h => by rwa [e]⟩

theorem raiseFlag (s : State) (f : Flag) : s.Accumulates (s.raiseFlag f) :=
  of_groups rfl fun _ h => isSet_raiseFlag_of_isSet _ h _

theorem claim (s : State) (g : GroupId) (c : HoldCause) : s.Accumulates (s.claim g c) := by
  refine ⟨fun f h => isSet_claim_of_isSet _ h _ _, fun g' h => ?_, fun g' k h => ?_, fun g' h => ?_, fun g' h => ?_⟩
  all_goals
    by_cases e : g = g'
    · subst e
      rw [group_claim_self]
      cases hs : (s.group g).state <;> simp_all [Group.hasCause]
      all_goals exact hasCause_insert h c
    · rw [group_claim_of_ne s e]
      exact h

theorem foldl {α : Type} (f : State → α → State) (h : ∀ (s : State) (a : α), s.Accumulates (f s a)) (l : List α) (s : State) :
    s.Accumulates (l.foldl f s) := by
  induction l generalizing s with
  | nil => exact refl s
  | cons a l ih => exact (h s a).trans (ih _)

theorem claimOn (s : State) (g : Option GroupId) (c : HoldCause) : s.Accumulates (s.claimOn g c) := by
  cases g with
  | none => exact refl s
  | some g => exact claim s g c

theorem endJog (s : State) (o : JogOutcome) : s.Accumulates (s.endJog o) :=
  of_groups (groups_endJog s o) fun _ h => isSet_endJog_of_isSet s h o

theorem jogNotice (s : State) (p : PointId) (o : JogOutcome) : s.Accumulates (s.jogNotice p o) := by
  unfold State.jogNotice
  split
  · split
    · exact endJog s o
    · exact refl s
  · exact refl s

theorem noticeTerms (s : State) (tm : Terms) : s.Accumulates (s.noticeTerms tm) := by
  unfold State.noticeTerms
  split
  · split
    · exact endJog s _
    · exact refl s
  · exact refl s

theorem enterState (s : State) (tm : Terms) (st : ConstraintState) : s.Accumulates (s.enterState tm st) := by
  have c (s : State) (gs : List GroupId) (k : HoldCause) : s.Accumulates (s.claimGroups gs k) :=
    foldl _ (fun t g => claim t g k) gs s
  cases st with
  | idle => exact refl s
  | clear => exact refl s
  | warn => exact (raiseFlag s _).trans (noticeTerms _ _)
  | breach => exact ((raiseFlag s _).trans (c _ _ _)).trans (noticeTerms _ _)
  | blind => exact ((raiseFlag s _).trans (c _ _ _)).trans (noticeTerms _ _)

theorem evaluate (s : State) (c : ConstraintId) : s.Accumulates (s.evaluate c) := by
  unfold State.evaluate
  split
  · exact refl s
  · split
    · exact refl s
    · dsimp only
      have k (x : Option Constraint) : s.Accumulates (s.setConstraint c x) := of_groups rfl fun _ h => h
      split
      · exact k _
      · exact (k _).trans (enterState _ _ _)

theorem evaluateIndex (s : State) (p : PointId) : s.Accumulates (s.evaluateIndex p) := by
  unfold State.evaluateIndex
  split
  · exact foldl _ evaluate _ s
  · exact refl s

end Accumulates

/-- A claim on a group that takes claims leaves it HOLDING with the cause (R129). -/
theorem held_claim (s : State) (g : GroupId) (c : HoldCause)
    (h : (s.group g).state = .staging ∨ (s.group g).state = .gap ∨ (s.group g).state = .holding) :
    ((s.claim g c).group g).state = .holding ∧ ((s.claim g c).group g).hasCause c = true := by
  rw [group_claim_self]
  rcases h with h | h | h <;> rw [h] <;> simp [Group.hasCause, h, getLsbD_insertBit_self _ c.bit_lt]

/-- A constraint that enters BLIND sets BREACH and holds every group that a term names and that takes claims (R97). -/
theorem evaluate_enters_blind {s : State} {c : ConstraintId} {x : Constraint} {v : Int} (hx : s.constraint c = some x)
    (hv : s.constraintValue x.terms = some v) (hl : s.anyTermLost x.terms = true) (hs : x.state ≠ .blind) :
    (s.evaluate c).attention.isSet .breach = true
    ∧ ∀ q ∈ x.terms.points, ∀ g, (s.point q).group = some g →
        ((s.group g).state = .staging ∨ (s.group g).state = .gap ∨ (s.group g).state = .holding) →
        ((s.evaluate c).group g).state = .holding ∧ ((s.evaluate c).group g).hasCause .blind = true := by
  have e : s.evaluate c =
      (s.setConstraint c (some { x with state := .blind, last := some v })).enterState x.terms .blind := by
    simp [State.evaluate, hx, hv, judgeValue, hl, Ne.symm hs]
  rw [e]
  generalize ht : s.setConstraint c (some { x with state := .blind, last := some v }) = t
  have tg : t.termGroups x.terms = s.termGroups x.terms := by subst ht; rfl
  have gg (g : GroupId) : t.group g = s.group g := by subst ht; rfl
  have k : ((t.raiseFlag .breach).claimGroups (t.termGroups x.terms) .blind).Accumulates (t.enterState x.terms .blind) :=
    Accumulates.noticeTerms _ _
  constructor
  · refine k.flag _ (Accumulates.flag (Accumulates.foldl _ (fun u g => Accumulates.claim u g _) _ _) _ ?_)
    exact isSet_raiseFlag t .breach
  · intro q hq g hg hm
    have mem : g ∈ t.termGroups x.terms := by
      rw [tg, mem_termGroups]
      exact ⟨q, hq, hg⟩
    have r : ((t.raiseFlag .breach).claimGroups (t.termGroups x.terms) .blind).group g
        = ((t.raiseFlag .breach).claim g .blind).group g := by
      unfold State.claimGroups
      rw [group_foldl_claim _ _ (nodup_termGroups _ _), if_pos]
      exact mem
    have h := held_claim (t.raiseFlag .breach) g .blind (by
      show (t.group g).state = _ ∨ (t.group g).state = _ ∨ (t.group g).state = _
      rw [gg]; exact hm)
    exact ⟨k.held g (r ▸ h.1), k.cause g _ (r ▸ h.2)⟩

/-- With every group FREE and no jog, an evaluation writes the record and the flag of the state it enters, and nothing
else (R97, R101). -/
theorem evaluate_quiet {s : State} (hf : s.AllFree) (hj : s.jog.active = none) (c : ConstraintId) :
    s.evaluate c = { s with constraints := (s.evaluate c).constraints, attention := (s.evaluate c).attention }
    ∧ ∀ f, (s.evaluate c).attention.isSet f = true ↔ s.attention.isSet f = true ∨
        ∃ x v, s.constraint c = some x ∧ s.constraintValue x.terms = some v
          ∧ x.state ≠ judgeValue (s.anyTermLost x.terms) v x.limit x.warn
          ∧ ((f = .warn ∧ judgeValue (s.anyTermLost x.terms) v x.limit x.warn = .warn)
            ∨ (f = .breach ∧ (judgeValue (s.anyTermLost x.terms) v x.limit x.warn = .breach
              ∨ judgeValue (s.anyTermLost x.terms) v x.limit x.warn = .blind))) := by
  have quiet (u : State) (hu : u.groups = s.groups) (g : GroupId) (k : HoldCause) : u.claim g k = u := by
    have e : (u.group g).state = .free := by
      have := hf g
      rwa [State.group, ← hu] at this
    simp [State.claim, e]
  have claims (u : State) (hu : u.groups = s.groups) (gs : List GroupId) (k : HoldCause) : u.claimGroups gs k = u := by
    unfold State.claimGroups
    induction gs with
    | nil => rfl
    | cons g gs ih => rw [List.foldl_cons, quiet u hu]; exact ih
  have notice (u : State) (hu : u.jog = s.jog) (tm : Terms) : u.noticeTerms tm = u := by
    simp [State.noticeTerms, hu, hj]
  cases hx : s.constraint c with
  | none => simp [State.evaluate, hx]
  | some x =>
    cases hv : s.constraintValue x.terms with
    | none => simp [State.evaluate, hx, hv]
    | some v =>
      simp only [State.evaluate, hx, hv, Option.some.injEq, exists_and_left, exists_eq_left']
      generalize judgeValue (s.anyTermLost x.terms) v x.limit x.warn = st
      by_cases hs : st = x.state
      · subst hs
        simp [State.setConstraint]
      · rw [if_neg hs]
        simp only [ne_eq, Ne.symm hs, not_false_eq_true, true_and]
        generalize hu : s.setConstraint c (some { x with state := st, last := some v }) = u
        have ua : u.attention = s.attention := by subst hu; rfl
        have uj : u.jog = s.jog := by subst hu; rfl
        have ug : u.groups = s.groups := by subst hu; rfl
        have ue : u = { s with constraints := u.constraints } := by subst hu; rfl
        have e : u.enterState x.terms st = match st with
            | .idle => u | .clear => u | .warn => u.raiseFlag .warn | .breach => u.raiseFlag .breach
            | .blind => u.raiseFlag .breach := by
          cases st
          · rfl
          · rfl
          · exact notice (u.raiseFlag .warn) uj _
          · exact (congrArg (State.noticeTerms · _) (claims (u.raiseFlag .breach) ug _ _)).trans
              (notice (u.raiseFlag .breach) uj _)
          · exact (congrArg (State.noticeTerms · _) (claims (u.raiseFlag .breach) ug _ _)).trans
              (notice (u.raiseFlag .breach) uj _)
        rw [e]
        constructor
        · cases st <;> simp only [State.raiseFlag] <;> rw [ue]
        · intro f
          cases st <;> simp [isSet_raiseFlag_iff, ua]

/-- Several evaluations in such a state, each of another record: the flags set are those set before, and those of the
states entered (R97, R101). -/
theorem foldl_evaluate_quiet (l : List ConstraintId) : ∀ s : State, l.Nodup → s.AllFree → s.jog.active = none →
    l.foldl State.evaluate s =
      { s with constraints := (l.foldl State.evaluate s).constraints, attention := (l.foldl State.evaluate s).attention }
    ∧ ∀ f, (l.foldl State.evaluate s).attention.isSet f = true ↔ s.attention.isSet f = true ∨
        ∃ c ∈ l, ∃ x v, s.constraint c = some x ∧ s.constraintValue x.terms = some v
          ∧ x.state ≠ judgeValue (s.anyTermLost x.terms) v x.limit x.warn
          ∧ ((f = .warn ∧ judgeValue (s.anyTermLost x.terms) v x.limit x.warn = .warn)
            ∨ (f = .breach ∧ (judgeValue (s.anyTermLost x.terms) v x.limit x.warn = .breach
              ∨ judgeValue (s.anyTermLost x.terms) v x.limit x.warn = .blind))) := by
  induction l with
  | nil => intro s _ _ _; exact ⟨rfl, by simp⟩
  | cons a l ih =>
    intro s hn hf hj
    obtain ⟨h1, h2⟩ := List.nodup_cons.1 hn
    obtain ⟨q1, q2⟩ := evaluate_quiet hf hj a
    have j := Judged.evaluate s a
    have hf' : (s.evaluate a).AllFree := fun g => by
      have : (s.evaluate a).group g = s.group g := by rw [q1]; rfl
      rw [this]; exact hf g
    have hj' : (s.evaluate a).jog.active = none := by rw [q1]; exact hj
    obtain ⟨r1, r2⟩ := ih (s.evaluate a) h2 hf' hj'
    simp only [List.foldl_cons]
    constructor
    · rw [r1, q1]
    · intro f
      rw [r2, q2]
      simp only [j.constraintValue, j.anyTermLost, List.mem_cons, exists_eq_or_imp, or_assoc]
      refine or_congr_right (or_congr_right (exists_congr fun c => and_congr_right fun hc => ?_))
      rw [constraint_evaluate_of_ne s (by rintro rfl; exact h1 hc)]

/-- The same where the record is one of a point's constraint index, in a judging plan (R96, R97). -/
theorem evaluateIndex_enters_blind {s : State} {p : PointId} {c : ConstraintId} {x : Constraint} {v : Int}
    (hj : s.judging = true) (hc : c ∈ (s.point p).index) (hx : s.constraint c = some x)
    (hv : s.constraintValue x.terms = some v) (hl : s.anyTermLost x.terms = true) (hs : x.state ≠ .blind) :
    (s.evaluateIndex p).attention.isSet .breach = true
    ∧ ∀ q ∈ x.terms.points, ∀ g, (s.point q).group = some g →
        ((s.group g).state = .staging ∨ (s.group g).state = .gap ∨ (s.group g).state = .holding) →
        ((s.evaluateIndex p).group g).state = .holding ∧ ((s.evaluateIndex p).group g).hasCause .blind = true := by
  unfold State.evaluateIndex
  rw [if_pos hj]
  generalize (s.point p).index = l at hc
  induction l generalizing s with
  | nil => cases hc
  | cons a l ih =>
    rw [List.foldl_cons]
    by_cases ha : c = a
    · subst ha
      have h := evaluate_enters_blind hx hv hl hs
      have k := Accumulates.foldl _ Accumulates.evaluate l (s.evaluate c)
      exact ⟨k.flag _ h.1, fun q hq g hg hm => ⟨k.held g (h.2 q hq g hg hm).1, k.cause g _ (h.2 q hq g hg hm).2⟩⟩
    · have j := Judged.evaluate s a
      have k := Accumulates.evaluate s a
      have h := ih (s := s.evaluate a) (by rw [j.judging]; exact hj)
        (by rw [constraint_evaluate_of_ne s (Ne.symm ha)]; exact hx) (by rw [j.constraintValue]; exact hv)
        (by rw [j.anyTermLost]; exact hl) ((List.mem_cons.1 hc).resolve_left ha)
      exact ⟨h.1, fun q hq g hg hm => h.2 q hq g (by rw [j.group_point]; exact hg) (k.takes g hm)⟩

/-! ### The loss of a point (R81) -/

/-- The point LOST, LOST set and the LOST claim made: what the monitor and the permit unit are then handed (R81). -/
def atLoss (s : State) (l : LinkId) (p : PointId) : State :=
  (((s.setPoint p { s.point p with health := .lost }).setGoodRun l p 0).raiseFlag .lost).claimOn (s.point p).group .lost

/-- The loss hands the change to the monitor and to the permit unit, in one order or the other (R81, R150). -/
theorem lose_order (s : State) (l : LinkId) (p : PointId) :
    ∃ u ∈ [((s.atLoss l p).evaluateIndex p).jogNotice p .lost, ((s.atLoss l p).jogNotice p .lost).evaluateIndex p],
      s.lose l p = { u with choices := (s.lose l p).choices } := by
  have g : (((s.setPoint p { s.point p with health := .lost }).setGoodRun l p 0).point p).group = (s.point p).group := by
    show ((s.setPoint p { s.point p with health := .lost }).point p).group = _
    simp
  have e : s.lose l p = chooseOrder (((s.atLoss l p).evaluateIndex p).jogNotice p .lost)
      [((s.atLoss l p).jogNotice p .lost).evaluateIndex p] := by
    unfold State.lose atLoss
    dsimp only
    rw [g]
  rw [e]
  refine chooseOrder_ind (motive := fun t => ∃ u : State, u ∈ [((s.atLoss l p).evaluateIndex p).jogNotice p .lost,
    ((s.atLoss l p).jogNotice p .lost).evaluateIndex p] ∧ t = { u with choices := t.choices }) _ _ ?_ ?_ ?_
  · rintro t n ⟨u, hu, e⟩
    exact ⟨u, hu, by rw [e]⟩
  · exact ⟨_, List.mem_cons_self, rfl⟩
  · intro t ht
    exact ⟨t, List.mem_cons_of_mem _ ht, rfl⟩

/-! ### A LINK-RESET's skew entries (R90, R107) -/

/-- The skew entry of a body with a corner that holds no load becomes absent, and nothing else changes (R106, R107). -/
theorem judgeSkewOf_unloaded {s : State} {p : PointId} {w : Seat} {x : Body} (hs : (s.point p).seat = some w)
    (hb : s.body w.body = some x) (hc : x.corner w.corner = p) (hl : (s.point p).load = none) :
    s.judgeSkewOf p = s.setSkew w.body false := by
  have k : s.skewed x = false := by
    have e : (s.point (x.corner w.corner)).load = none := by rw [hc]; exact hl
    unfold State.skewed
    revert e
    cases w.corner <;> intro e <;> simp only [Body.corner] at e
    all_goals split
    all_goals first | rfl | simp_all
  simp [State.judgeSkewOf, State.judgeSkew, hs, hb, k]

/-- The skew entries after the judgements of a list of points, each at a corner of its body and without a load: absent
where a point of the list stands under the body, and otherwise as they were (R107). -/
theorem foldl_judgeSkewOf_unloaded (l : List PointId) : ∀ s : State,
    (∀ p ∈ l, (s.point p).load = none) →
    (∀ p ∈ l, ∀ w, (s.point p).seat = some w → ∃ x, s.body w.body = some x ∧ x.corner w.corner = p) →
    ∃ k : Table Bool 12, l.foldl State.judgeSkewOf s = { s with skew := k }
      ∧ ∀ b, k.at b = if ∃ p ∈ l, (s.point p).seat.any (fun w => w.body == b) = true then false else s.skew.at b := by
  induction l with
  | nil => intro s _ _; exact ⟨s.skew, rfl, fun b => by simp⟩
  | cons a l ih =>
    intro s h1 h2
    rw [List.foldl_cons]
    cases hs : (s.point a).seat with
    | none =>
      have e : s.judgeSkewOf a = s := by simp [State.judgeSkewOf, hs]
      rw [e]
      obtain ⟨k, e, hk⟩ := ih s (fun p hp => h1 p (List.mem_cons_of_mem _ hp)) fun p hp => h2 p (List.mem_cons_of_mem _ hp)
      refine ⟨k, e, fun b => ?_⟩
      rw [hk]
      simp [hs]
    | some w =>
      obtain ⟨x, hb, hc⟩ := h2 a List.mem_cons_self w hs
      rw [judgeSkewOf_unloaded hs hb hc (h1 a List.mem_cons_self)]
      obtain ⟨k, e, hk⟩ := ih (s.setSkew w.body false) (fun p hp => h1 p (List.mem_cons_of_mem _ hp))
        fun p hp => h2 p (List.mem_cons_of_mem _ hp)
      refine ⟨k, by rw [e]; rfl, fun b => ?_⟩
      rw [hk]
      have pt (p : PointId) : (s.setSkew w.body false).point p = s.point p := rfl
      simp only [pt, List.mem_cons, exists_eq_or_imp, hs, Option.any_some]
      by_cases hw : w.body = b
      · subst hw
        simp [State.setSkew]
      · simp [hw, State.setSkew, Table.at_put_of_ne _ hw]

end State

end Sys2Proof.Machine
end

