-- ==== Sys2Proof/Laws/PerInstr.lean ====
section
/-! SUPPORT. One lemma per command about its encoding: the code a request is encoded with is the code its response
echoes. -/

namespace Sys2Proof.Laws.Encoding

/-- A command that the encoder encodes is encoded with its own request code, NOP with 00h (R174, R186). -/
def Statement (i : Instr) : Prop :=
  ∀ c ops, encodeRequest i = some (c, ops) → Machine.requestCode i = some c ∨ (c = 0x00#8 ∧ ops = [])

/-- The encoder writes the code that the response echoes, for every command. -/
theorem all (i : Instr) : Statement i := by
  intro c r h
  unfold encodeRequest at h
  split at h <;> simp only [Option.some.injEq, Prod.mk.injEq, reduceCtorEq] at h <;> obtain ⟨rfl, rfl⟩ := h <;>
    first
      | exact Or.inr ⟨rfl, rfl⟩
      | exact Or.inl rfl

theorem nop (ops : Carried Unit) : Statement (.nop ops) := all _

theorem select (ops : Carried SelectOps) : Statement (.select ops) := all _

theorem partReset (ops : Carried Unit) : Statement (.partReset ops) := all _

theorem enrolPoint (ops : Carried EnrolOps) : Statement (.enrolPoint ops) := all _

theorem bind (ops : Carried Nat) : Statement (.bind ops) := all _

theorem retirePoint (ops : Carried Nat) : Statement (.retirePoint ops) := all _

theorem recaptureRest (ops : Carried Nat) : Statement (.recaptureRest ops) := all _

theorem amendPoint (ops : Carried AmendPointOps) : Statement (.amendPoint ops) := all _

theorem readPoint (ops : Carried Unit) : Statement (.readPoint ops) := all _

theorem findPoint (ops : Carried FindOps) : Statement (.findPoint ops) := all _

theorem defineBody (ops : Carried DefineBodyOps) : Statement (.defineBody ops) := all _

theorem amendBody (ops : Carried AmendBodyOps) : Statement (.amendBody ops) := all _

theorem retireBody (ops : Carried Nat) : Statement (.retireBody ops) := all _

theorem readBody (ops : Carried Nat) : Statement (.readBody ops) := all _

theorem addConstraint (ops : Carried AddConstraintOps) : Statement (.addConstraint ops) := all _

theorem amendConstraint (ops : Carried AmendConstraintOps) : Statement (.amendConstraint ops) := all _

theorem retireConstraint (ops : Carried Nat) : Statement (.retireConstraint ops) := all _

theorem readConstraint (ops : Carried Nat) : Statement (.readConstraint ops) := all _

theorem compile (ops : Carried Unit) : Statement (.compile ops) := all _

theorem releasePlan (ops : Carried Unit) : Statement (.releasePlan ops) := all _

theorem readPlan (ops : Carried Unit) : Statement (.readPlan ops) := all _

theorem formGroup (ops : Carried FormGroupOps) : Statement (.formGroup ops) := all _

theorem start (ops : Carried StartOps) : Statement (.start ops) := all _

theorem continue_ (ops : Carried Nat) : Statement (.continue_ ops) := all _

theorem amendTravel (ops : Carried AmendTravelOps) : Statement (.amendTravel ops) := all _

theorem hold (ops : Carried Nat) : Statement (.hold ops) := all _

theorem resume (ops : Carried Nat) : Statement (.resume ops) := all _

theorem disband (ops : Carried Nat) : Statement (.disband ops) := all _

theorem readGroup (ops : Carried Nat) : Statement (.readGroup ops) := all _

theorem jog (ops : Carried JogOps) : Statement (.jog ops) := all _

theorem jogCancel (ops : Carried Unit) : Statement (.jogCancel ops) := all _

theorem stop (ops : Carried Unit) : Statement (.stop ops) := all _

theorem clearStop (ops : Carried Unit) : Statement (.clearStop ops) := all _

theorem readJog (ops : Carried Unit) : Statement (.readJog ops) := all _

theorem setLine (ops : Carried SetLineOps) : Statement (.setLine ops) := all _

theorem setOutput (ops : Carried SetOutputOps) : Statement (.setOutput ops) := all _

theorem readLines (ops : Carried Unit) : Statement (.readLines ops) := all _

theorem linkReset (ops : Carried Nat) : Statement (.linkReset ops) := all _

theorem readLink (ops : Carried Nat) : Statement (.readLink ops) := all _

theorem readAttention (ops : Carried Unit) : Statement (.readAttention ops) := all _

theorem clearAttention (ops : Carried (BitVec 32)) : Statement (.clearAttention ops) := all _

theorem setEnables (ops : Carried (BitVec 32)) : Statement (.setEnables ops) := all _

theorem setLimits (ops : Carried Limits) : Statement (.setLimits ops) := all _

theorem lockLimits (ops : Carried Unit) : Statement (.lockLimits ops) := all _

theorem readLimits (ops : Carried Unit) : Statement (.readLimits ops) := all _

theorem readIdentity (ops : Carried Unit) : Statement (.readIdentity ops) := all _

theorem unknown (code : Byte) : Statement (.unknown code) := all _

theorem frameError (first : Byte) : Statement (.frameError first) := all _

theorem transactionDuringWait : Statement .transactionDuringWait := all _

theorem powerOn : Statement .powerOn := all _

theorem startUpWaitEnd : Statement .startUpWaitEnd := all _

theorem poll (link : LinkId) : Statement (.poll link) := all _

theorem probe (link : LinkId) : Statement (.probe link) := all _

theorem allStop (link : LinkId) : Statement (.allStop link) := all _

theorem reply (link : LinkId) (f : ReplyFields) : Statement (.reply link f) := all _

theorem announce (link : LinkId) (f : AnnounceFields) : Statement (.announce link f) := all _

theorem missedReply (link : LinkId) : Statement (.missedReply link) := all _

theorem probeUnanswered (link : LinkId) : Statement (.probeUnanswered link) := all _

theorem ignoredFrame (link : LinkId) : Statement (.ignoredFrame link) := all _

theorem breakStart (link : LinkId) : Statement (.breakStart link) := all _

theorem breakEnd (link : LinkId) : Statement (.breakEnd link) := all _

theorem rawLevelChange (line : LineId) (level : Level) : Statement (.rawLevelChange line level) := all _

theorem debounceTimerExpiry (line : LineId) : Statement (.debounceTimerExpiry line) := all _

theorem stageTimerExpiry (group : GroupId) : Statement (.stageTimerExpiry group) := all _

theorem jogTimerExpiry : Statement .jogTimerExpiry := all _

theorem compilationComplete : Statement .compilationComplete := all _

theorem resetPinRelease : Statement .resetPinRelease := all _

end Sys2Proof.Laws.Encoding
end

