-- ==== Sys2Proof/Laws/Slots.lean ====
section
/-! SUPPORT. The slots of the links: what is due on an idle queue, what a microsecond does to an engine, which roster
entry is next, and how heard bytes make frames. -/

namespace Sys2Proof.Machine

/-! ### What a microsecond does -/

namespace State

variable (s : State)

@[simp] theorem line_countDown (l : LineId) : s.countDown.line l = (s.line l).tick := by
  simp [State.countDown, State.line]

@[simp] theorem group_countDown (g : GroupId) : s.countDown.group g = (s.group g).tick := by
  simp [State.countDown, State.group]

@[simp] theorem engine_countDown (l : LinkId) : s.countDown.engine l = (s.engine l).tick := by
  simp [State.countDown, State.engine]

/-- A microsecond changes lines, groups, the jog, the links and the plan alone. -/
theorem countDown_eq : s.countDown = { s with
    lines := s.countDown.lines, groups := s.countDown.groups, jog := s.jog.tick, links := s.countDown.links
    plan := s.plan.tick } := rfl

/-- While the part works, what is due is put into the queue, or a microsecond passes. -/
theorem tick_working (h : s.phase = .running) : s.tick =
    if s.due = [] then { s.countDown with pending := s.pending ++ s.countDown.expiries }
    else { s with pending := s.pending ++ s.due } := by
  unfold State.tick
  rw [h]
  cases s.due <;> rfl

end State

/-- A microsecond leaves the function of a line. -/
@[simp] theorem Line.function_tick (x : Line) : x.tick.function = x.function := rfl

/-- A microsecond leaves the state of a group. -/
@[simp] theorem Group.state_tick (x : Group) : x.tick.state = x.state := by
  unfold Group.tick
  split <;> rfl

/-- A microsecond leaves the roster of an engine, its queue, its link state and what it has counted. -/
theorem Engine.tick_eq (x : Engine) : x.tick =
    { x with
      exchange := x.tick.exchange, slotLeft := x.tick.slotLeft, breakLeft := x.breakLeft.map (· - 1)
      cycle := x.tick.cycle } := by
  unfold Engine.tick Engine.slotOver Engine.rested Engine.countDown
  dsimp only
  split
  · split <;> rfl
  · rfl

/-- After a microsecond an exchange is the one before, or absent where an ALL-STOP's slot has ended (R76). -/
theorem Engine.exchange_tick (x : Engine) : x.tick.exchange = x.exchange
    ∨ (x.tick.exchange = none ∧ x.exchange = some .allStop ∧ x.slotLeft.map (· - 1) = some 0) := by
  unfold Engine.tick Engine.slotOver Engine.rested Engine.countDown runOut
  dsimp only
  split
  · next h =>
    refine .inr ⟨?_, h.1, by simpa using h.2⟩
    split <;> rfl
  · exact .inl rfl

/-! ### What is due (R76, R77, R88, R90) -/

/-- An engine sends an ALL-STOP exactly where one is pending (R77, step 1). -/
theorem Engine.choose_eq_allStop_iff (e : Engine) : e.choose = .allStop ↔ e.stopPending = true := by
  unfold Engine.choose
  cases e.stopPending with
  | true => simp
  | false =>
    simp only [Bool.false_eq_true, if_false, iff_false]
    split <;> simp

/-- The command that an engine's next slot or break is, where no slot is in progress. -/
theorem Engine.due_eq_some_iff (e : Engine) (l : LinkId) (c : Instr) : e.due l = some c ↔
    e.exchange = none ∧
      ((c = .breakStart l ∧ e.link = .resetting ∧ e.breakLeft = none)
        ∨ (c = .allStop l ∧ e.link ≠ .resetting ∧ e.stopPending = true)
        ∨ (c = .poll l ∧ e.link = .running ∧ ∃ r, e.choose = .poll r)
        ∨ (c = .probe l ∧ e.link = .running ∧ ∃ p, e.choose = .probe p)) := by
  have hs := e.choose_eq_allStop_iff
  have flip (a : Instr) : some a = some c ↔ c = a := by rw [Option.some.injEq]; exact eq_comm
  unfold Engine.due
  cases e.exchange with
  | some x => simp
  | none =>
    cases e.link with
    | idle => cases e.stopPending <;> simp [flip]
    | resetting => cases e.breakLeft <;> simp [flip]
    | running => cases h : e.choose <;> simp_all

/-- The commands due are those of the engines. -/
theorem State.mem_due_iff (s : State) (c : Instr) : c ∈ s.due ↔ ∃ l, (s.engine l).due l = some c := by
  simp [State.due]

/-- In a roster of ascending node address, the next entry is the lowest above the cycle position (R77, step 2). -/
theorem Engine.nextPoll_eq_some_iff {e : Engine} (h : e.roster.Pairwise fun a b => a.node < b.node) (r : RosterEntry) :
    let above (q : RosterEntry) := ∀ c, e.cycle = some c → c < q.node
    e.nextPoll = some r ↔ r ∈ e.roster ∧ above r ∧ ∀ q ∈ e.roster, above q → r.node ≤ q.node := by
  intro above
  have passes (q : RosterEntry) : (e.cycle.all fun c => c.val < q.node.val) = true ↔ above q := by
    cases h : e.cycle <;> simp [above, h]
  unfold Engine.nextPoll
  rw [List.find?_eq_some_iff_append]
  constructor
  · rintro ⟨h1, before, after, h2, h3⟩
    refine ⟨by rw [h2]; simp, (passes r).1 h1, fun q hq ha => ?_⟩
    rw [h2] at hq h
    simp only [List.mem_append, List.mem_cons] at hq
    rcases hq with hq | rfl | hq
    · have := h3 q hq
      rw [← passes] at ha
      simp_all
    · exact Fin.le_refl _
    · exact Fin.le_of_lt (List.rel_of_pairwise_cons (List.pairwise_append.1 h).2.1 hq)
  · rintro ⟨h1, h2, h3⟩
    obtain ⟨before, after, h4⟩ := List.append_of_mem h1
    refine ⟨(passes r).2 h2, before, after, h4, fun q hq => ?_⟩
    have : ¬ above q := fun ha => by
      have h5 := h3 q (by rw [h4]; simp [hq]) ha
      rw [h4] at h
      exact Fin.not_le.2 ((List.pairwise_append.1 h).2.2 q hq r (by simp)) h5
    rw [← passes] at this
    simpa using this

/-! ### Frames (R189) -/

/-- A byte before a frame that the line's idle time parts from it is a frame of its own (R189). -/
theorem cutFrames_cons_of_idle {b : HeardByte} {rest : List HeardByte} {f : HeardFrame} {fs : List HeardFrame}
    (h : cutFrames rest = f :: fs) (idle : b.stop + Config.frameIdleUs ≤ f.start) :
    cutFrames (b :: rest) = b.alone :: f :: fs := by
  simp only [cutFrames, h]
  exact if_neg (Nat.not_lt.2 idle)

/-- A byte that comes before a frame with less idle time belongs to it (R189). -/
theorem cutFrames_cons_of_near {b : HeardByte} {rest : List HeardByte} {f : HeardFrame} {fs : List HeardFrame}
    (h : cutFrames rest = f :: fs) (near : f.start < b.stop + Config.frameIdleUs) :
    cutFrames (b :: rest) = b.before f :: fs := by
  simp only [cutFrames, h]
  exact if_pos near

/-- The frames hold the bytes heard, in their order. -/
theorem flatMap_bytes_cutFrames (heard : List HeardByte) :
    (cutFrames heard).flatMap (·.bytes) = heard.map (·.value) := by
  induction heard with
  | nil => rfl
  | cons b rest ih =>
    cases h : cutFrames rest with
    | nil =>
      rw [h] at ih
      simp only [cutFrames, h]
      simpa [HeardByte.alone] using ih
    | cons f fs =>
      rw [h] at ih
      by_cases near : f.start < b.stop + Config.frameIdleUs
      · rw [cutFrames_cons_of_near h near]
        simpa [HeardByte.before] using ih
      · rw [cutFrames_cons_of_idle h (Nat.not_lt.1 near)]
        simpa [HeardByte.alone] using ih

end Sys2Proof.Machine
end

