-- ==== Sys2Proof/Tests/Slice0.lean ====
section
/-! SUPPORT. The model's own tests: the check of well-formedness, the encodings, small states, worked examples of the
spec, and for each statement with hypotheses a state and operands that meet them. -/

namespace Sys2Proof.Tests

open Sys2Proof Sys2Proof.Machine

/-- The last point id. -/
def lastPoint : PointId := ⟨47, by decide +kernel⟩

/-! ### The check of well-formedness refuses an ill-formed term for each of its checks -/

theorem test_wf_refuses_undecoded_operands : illFormedRequests.all (fun i => !i.wf) = true := by decide +kernel

theorem test_wf_refuses_ids_out_of_range :
    [Instr.bind (.takes 48), .retirePoint (.takes 48), .recaptureRest (.takes 48), .retireBody (.takes 12),
     .readBody (.takes 12), .retireConstraint (.takes 128), .readConstraint (.takes 128), .continue_ (.takes 4),
     .hold (.takes 4), .resume (.takes 4), .disband (.takes 4), .readGroup (.takes 4), .linkReset (.takes 4),
     .readLink (.takes 4), .setOutput (.takes ⟨12, true⟩), .setLine (.takes ⟨12, 0, .absent, .activeHigh⟩),
     .setLine (.takes ⟨0, 9, .absent, .activeHigh⟩), .select (.takes ⟨some 48, none⟩)].all (fun i => !i.wf) = true := by
  decide +kernel

theorem test_wf_refuses_points :
    [Instr.enrolPoint (.takes ⟨48, ⟨0, 1⟩⟩), .enrolPoint (.takes ⟨0, ⟨4, 1⟩⟩), .enrolPoint (.takes ⟨0, ⟨0, 0⟩⟩),
     .enrolPoint (.takes ⟨0, ⟨0, 16⟩⟩), .findPoint (.takes (.byAddress ⟨0, 0⟩)), .findPoint (.takes (.byCorner 12 .ll)),
     .amendPoint (.takes ⟨none, none, none⟩), .amendPoint (.takes ⟨some ⟨0, 0⟩, none, none⟩),
     .amendPoint (.takes ⟨some ⟨0, 1⟩, some 1, none⟩), .amendPoint (.takes ⟨none, some 0, none⟩),
     .amendPoint (.takes ⟨none, some 6001, none⟩)].all (fun i => !i.wf) = true := by decide +kernel

theorem test_wf_refuses_bodies :
    [Instr.defineBody (.takes ⟨12, 0, 0, 1, 2, 3, .none, .default_, .default_, .default_⟩),
     .defineBody (.takes ⟨0, 12, 0, 1, 2, 3, .none, .default_, .default_, .default_⟩),
     .defineBody (.takes ⟨0, 0, 48, 1, 2, 3, .none, .default_, .default_, .default_⟩),
     .defineBody (.takes ⟨0, 0, 0, 1, 2, 2, .none, .default_, .default_, .default_⟩),
     .defineBody (.takes ⟨0, 0, 0, 1, 2, 3, .closed, .default_, .default_, .default_⟩),
     .defineBody (.takes ⟨0, 0, 0, 1, 2, 3, .none, .value 0, .default_, .default_⟩),
     .defineBody (.takes ⟨0, 0, 0, 1, 2, 3, .none, .default_, .value 2001, .default_⟩),
     .defineBody (.takes ⟨0, 0, 0, 1, 2, 3, .none, .default_, .default_, .value 0⟩),
     .amendBody (.takes ⟨0, none, none, none, none, none, none, none, none, none⟩),
     .amendBody (.takes ⟨12, some 0, none, none, none, none, none, none, none, none⟩),
     .amendBody (.takes ⟨0, some 12, none, none, none, none, none, none, none, none⟩),
     .amendBody (.takes ⟨0, none, none, some 48, none, none, none, none, none, none⟩),
     .amendBody (.takes ⟨0, none, none, none, some 48, none, none, none, none, none⟩),
     .amendBody (.takes ⟨0, none, none, none, none, some 48, none, none, none, none⟩),
     .amendBody (.takes ⟨0, none, none, none, none, none, some 48, none, none, none⟩),
     .amendBody (.takes ⟨0, none, none, none, none, none, none, some (.value 0), none, none⟩),
     .amendBody (.takes ⟨0, none, none, none, none, none, none, none, some (.value 2001), none⟩),
     .amendBody (.takes ⟨0, none, none, none, none, none, none, none, none, some (.value 0)⟩)].all (fun i => !i.wf)
      = true := by decide +kernel

theorem test_wf_refuses_constraints :
    [Instr.addConstraint (.takes ⟨[0, 1, 2], 1, .default_⟩), .addConstraint (.takes ⟨[0, 48], 1, .default_⟩),
     .addConstraint (.takes ⟨[0, 0], 1, .default_⟩), .addConstraint (.takes ⟨[0, 1], 0, .default_⟩),
     .addConstraint (.takes ⟨[0, 1], 2001, .default_⟩), .addConstraint (.takes ⟨[0, 1], 1, .value 49⟩),
     .amendConstraint (.takes ⟨128, some 1, none⟩), .amendConstraint (.takes ⟨0, none, none⟩),
     .amendConstraint (.takes ⟨0, some 0, none⟩), .amendConstraint (.takes ⟨0, none, some (.value 101)⟩)].all
      (fun i => !i.wf) = true := by decide +kernel

theorem test_wf_refuses_groups_and_jogs :
    [Instr.formGroup (.takes ⟨4, [0]⟩), .formGroup (.takes ⟨0, []⟩), .formGroup (.takes ⟨0, [12]⟩),
     .formGroup (.takes ⟨0, [1, 1]⟩), .start (.takes ⟨4, 1, 10, 0⟩), .start (.takes ⟨0, 0, 10, 0⟩),
     .start (.takes ⟨0, 25001, 10, 0⟩), .start (.takes ⟨0, 1, 9, 0⟩), .start (.takes ⟨0, 1, 501, 0⟩),
     .start (.takes ⟨0, 1, 10, 65⟩), .amendTravel (.takes ⟨4, 1, none⟩), .amendTravel (.takes ⟨0, 0, none⟩),
     .amendTravel (.takes ⟨0, 1, some 9⟩), .jog (.takes ⟨48, 1⟩), .jog (.takes ⟨0, 0⟩), .jog (.takes ⟨0, -501⟩)].all
      (fun i => !i.wf) = true := by decide +kernel

theorem test_wf_refuses_limits_frames_and_codes :
    ([{ defaultLimits with liftCeiling := 99 }, { defaultLimits with maxStep := 501 },
      { defaultLimits with followWindow := 4 }, { defaultLimits with arrivalBand := 0 },
      { defaultLimits with restBand := 101 }, { defaultLimits with contactLoad := 9 },
      { defaultLimits with jointLimit := 4 }, { defaultLimits with warnPercent := 49 },
      { defaultLimits with shareLimit := 91 }, { defaultLimits with stageTimeout := 256 }].all
        fun l => !(Instr.setLimits (.takes l)).wf) = true
    ∧ [Instr.reply 0 ⟨256, 0, 0, 0⟩, .reply 0 ⟨1, 65536, 0, 0⟩, .reply 0 ⟨1, 0, 65536, 0⟩,
       .announce 0 ⟨256, 0, 0, 0, 0⟩, .announce 0 ⟨1, 65536, 0, 0, 0⟩, .announce 0 ⟨1, 0, 65536, 0, 0⟩,
       .announce 0 ⟨1, 0, 0, 16, 0⟩, .announce 0 ⟨1, 0, 0, 0, 65536⟩, .unknown 0x10].all (fun i => !i.wf) = true := by
  decide +kernel

/-! ### Frames (R172, R173, R184, R185, R189): bytes written out from the layouts -/

/-- The check values that these two CRCs have for the nine digits, by R184's own steps. -/
theorem test_crc_of_nine_digits :
    crc8 [0x31, 0x32, 0x33, 0x34, 0x35, 0x36, 0x37, 0x38, 0x39] = 0xF4
    ∧ crc16 [0x31, 0x32, 0x33, 0x34, 0x35, 0x36, 0x37, 0x38, 0x39] = 0x29B1 := by decide +kernel

/-- Section 9.6's first row: ENROL-POINT for point 9 at link 1 node 4, with bytes after its CRC that the part ignores. -/
theorem test_decode_enrol_frame :
    decodeTransaction ([0x10, 0x02, 0x09, 0x14] ++ [crc8 [0x10, 0x02, 0x09, 0x14]] ++ [0xAA, 0x55])
      = some (.enrolPoint (.takes ⟨9, ⟨1, 4⟩⟩)) := by decide +kernel

theorem test_decode_bad_frames :
    decodeTransaction [0x34, 0x00, crc8 [0x34, 0x00] + 1] = some (.frameError 0x34)
    ∧ decodeTransaction [0x34] = some (.frameError 0x34)
    ∧ decodeTransaction (0x34 :: 41 :: List.replicate 42 0) = some (.frameError 0x34)
    ∧ decodeTransaction [0x9F, 0x00, crc8 [0x9F, 0x00]] = some (.unknown 0x9F)
    ∧ decodeTransaction [0x52, 0x01, 0x00, crc8 [0x52, 0x01, 0x00]] = some (.stop .illFormed)
    ∧ decodeTransaction [] = none := by decide +kernel

/-- START of group 0 by −300 in steps of 100 with no gap, and SET-ENABLES of every flag. -/
theorem test_decode_start_and_mask :
    decodeRequest 0x41 [0x00, 0xFE, 0xD4, 0x00, 0x64, 0x00] = .start (.takes ⟨0, -300, 100, 0⟩)
    ∧ decodeRequest 0x82 [0x03, 0xFF, 0xFF, 0xFF] = .setEnables (.takes 0x03FFFFFF)
    ∧ decodeRequest 0x21 [0x01, 0x00, 0x42, 0, 2, 0, 0, 0, 0, 9, 0xFF, 0xFE, 0, 0, 0, 0] = .amendBody .illFormed
    ∧ decodeRequest 0x21 [0x01, 0x00, 0x42, 0, 0, 0, 0, 0, 2, 0xFF, 0xFE, 0, 0, 0, 0]
      = .amendBody (.takes ⟨1, none, some .closed, none, none, none, none, some .default_, none, none⟩) := by
  decide +kernel

theorem test_response_bytes :
    DataOut.bytes 7 (.frame ⟨.refusedState, 0x22, [0x04, 0x01]⟩)
      = [0x10, 0x22, 0x00, 0x02, 0x04, 0x01, crc8 [0x10, 0x22, 0x00, 0x02, 0x04, 0x01]]
    ∧ DataOut.bytes 7 (.frame Response.powerOn) = [0x00, 0x00, 0x00, 0x00, 0x00, 0x00, 0x00] := by decide +kernel

/-- A POLL of node 3 that carries RAISE to 1,240 with the latch set is 6 bytes and expects 8; an ALL-STOP 3 and none. -/
theorem test_link_frames :
    ((Exchange.poll 0 3 .raise (some 1240) true false).sent.1.take 4 = [0x03, 0x81, 0x04, 0xD8])
    ∧ (Exchange.poll 0 3 .raise (some 1240) true false).sent.1.length = 6
    ∧ (Exchange.allStop).sent.1.length = 3 := by decide +kernel

/-- Bytes heard from a moment on, each so many microseconds after the one before. -/
def spoken (start every : Nat) (bytes : List Byte) : List HeardByte :=
  bytes.zipIdx.map fun b => ⟨start + every * b.2, b.1, true⟩

/-- A POLL of node 1, and a REPLY to it. -/
def asked : Exchange := .poll 0 1 .hold none false false
/-- A good REPLY of node 1. -/
def answer : ReplyFields := ⟨1, 1000, 400, 0⟩

/-- The reply window closes 250 microseconds after the POLL's 60 (R76). -/
theorem test_judge_slot_window :
    judgeSlot 0 asked (spoken 310 10 (replyFrame answer)) = some (.reply 0 answer)
    ∧ judgeSlot 0 asked (spoken 311 10 (replyFrame answer)) = some (.missedReply 0)
    ∧ judgeSlot 0 asked (spoken 59 10 (replyFrame answer)) = some (.missedReply 0)
    ∧ judgeSlot 0 asked [] = some (.missedReply 0)
    ∧ judgeSlot 0 .allStop (spoken 60 10 (replyFrame answer)) = none := by decide +kernel

/-- Bytes less than 30 microseconds apart are one frame, here over-long or whole; 30 apart they are two, and the first is
the answer (R189). A frame that would end with the slot, and one with a spoiled byte, is no answer (R76, R189). -/
theorem test_judge_slot_frames :
    judgeSlot 0 asked (spoken 60 10 (replyFrame answer) ++ [⟨169, 0x01, true⟩]) = some (.missedReply 0)
    ∧ judgeSlot 0 asked (spoken 60 10 (replyFrame answer) ++ [⟨170, 0x01, true⟩]) = some (.reply 0 answer)
    ∧ judgeSlot 0 asked (spoken 60 39 (replyFrame answer)) = some (.reply 0 answer)
    ∧ judgeSlot 0 asked (spoken 60 40 (replyFrame answer)) = some (.missedReply 0)
    ∧ judgeSlot 0 asked (spoken 110 40 (replyFrame answer)) = some (.missedReply 0)
    ∧ judgeSlot 0 asked ((spoken 60 10 (replyFrame answer)).map fun b => { b with stopIdle := b.start != 100 })
      = some (.missedReply 0) := by decide +kernel

/-! ### Small states -/

/-- A planned, LIVE column under a corner of body 0, at rest on link 0. -/
def column (c : Corner) (node : NodeAddr) (index : List ConstraintId) : Point :=
  { Point.vacant with
    life := .planned, address := some ⟨0, node⟩, seat := some ⟨0, c⟩, health := .live, bindOutcome := .bound
    ratedCapacity := some 3500, ratedStroke := some 20000, nodeClass := some 2, derated := some 3500
    rest := some 1000, height := some 1000, load := some 400, index := index }

/-- One body on points 0 to 3. -/
def car : Body := ⟨0, 0, 1, 2, 3, .none, 100, 300, 60, none⟩

/-- One SIDE constraint on points 0 and 1. -/
def side : Constraint := ⟨.side, .two 0 1, 100, 80, .clear, some 0, some 0⟩

/-- The part working with the latch and the STOP flag clear. -/
def bare : State := { State.reset with stop := false, attention := ⟨0, 0, false⟩ }

/-- One car on four columns, judged by one constraint, in a COMPILED plan. -/
def train : State :=
  ((((((({ bare with plan := { bare.plan with state := .compiled } }).setPoint 0 (column .ll 1 [0])).setPoint 1
    (column .lr 2 [0])).setPoint 2 (column .tl 3 [])).setPoint 3 (column .tr 4 [])).setBody 0 (some car)).setConstraint
    0 (some side)).setEngine 0
    { Engine.powerOn with link := .running, roster := [⟨1, 0, 0⟩, ⟨2, 1, 0⟩, ⟨3, 2, 0⟩, ⟨4, 3, 0⟩] }

/-- The train in a plan that is being drafted: no point PLANNED, no constraint. -/
def drafted : State :=
  ((train.mapPoints fun _ x => { x with life := if x.life = .planned then .bound else x.life, index := [] }).setConstraint
    0 none).planTo .drafted

/-- The train with the car in group 0, the group in a state with a run of +400 in steps of 100. -/
def inGroup (st : GroupState) (from_ : Option HeldFrom) (causes : BitVec 13) : State :=
  { (((train.mapPoints fun p x =>
        if p.val < 4 then { x with group := some 0, base := some 1000, target := some 1100 } else x).setBody 0
      (some { car with group := some 0 })).setGroup 0
      ⟨st, [0], some ⟨400, 100, 2, 4, 0, 0⟩, from_, causes, some 30000000⟩) with
    plan := { train.plan with state := .inService } }.settle

/-- The group moving. -/
def staging : State := inGroup .staging none 0
/-- The group at an inspection gap. -/
def gap : State := inGroup .gap none 0
/-- The group held by the host in a stage. -/
def held : State := inGroup .holding (some .staging) 1

/-- Point 0 jogged by +50, and the plan in service. -/
def jogging : State :=
  { train.setPoint 0 { column .ll 1 [0] with target := some 1050 } with
    plan := { train.plan with state := .inService }
    jog := ⟨some ⟨0, 50, 1000, 30000000⟩, .none, none⟩ }.settle

/-- The train with an exchange in flight on link 0. -/
def onWire (s : State) (e : Exchange) : State :=
  s.setEngine 0 { s.engine 0 with exchange := some e, slotLeft := some 400 }

/-- The POLL of point 0 in flight. -/
def polled (discard : Bool) : Exchange := .poll 0 1 .none none false discard

/-- A point in no body. -/
def spare : PointId := ⟨9, by decide +kernel⟩

/-- A point enrolled on link 0 at node 9 and being probed, its attempts used. -/
def probed (attempts : Nat) (discard : Bool) : State :=
  (train.setPoint spare { Point.vacant with life := .draft, address := some ⟨0, 9⟩, bindOutcome := .pending }).setEngine 0
    { train.engine 0 with
      queue := [spare], attempts := attempts, exchange := some (.probe spare 9 discard), slotLeft := some 400 }

/-- The last link. -/
def lastLink : LinkId := ⟨3, by decide +kernel⟩

/-- The relation of R3 between bodies and points, and the positions of R2, as a check. -/
theorem seatsMatch_of {s : State}
    (h1 : ∀ b, ∀ x ∈ s.body b, ∀ c ∈ allCorners, (s.point (x.corner c)).seat = some ⟨b, c⟩)
    (h2 : ∀ p, ∀ w ∈ (s.point p).seat, ∃ x ∈ s.body w.body, x.corner w.corner = p)
    (h3 : ∀ p, (s.point p).life = .vacant → (s.point p).seat = none)
    (h4 : ∀ b c, ∀ x ∈ s.body b, ∀ y ∈ s.body c, x.position = y.position → b = c) : s.SeatsMatch :=
  ⟨fun b x c h => h1 b x h c (by cases c <;> simp [allCorners]), fun p w h => h2 p w h, h3,
    fun b c x y h k => h4 b c x h y k⟩

theorem test_train_seats_match : train.SeatsMatch :=
  seatsMatch_of (by decide +kernel) (by decide +kernel) (by decide +kernel) (by decide +kernel)

/-- The roster of the train's link matches its points. -/
theorem test_train_rosters_match : train.RostersMatch := by
  have quiet : ∀ l, (train.engine l).exchange = none := by decide +kernel
  have lists : ∀ l, (train.engine l).roster.Pairwise (fun a b => a.node < b.node)
      ∧ (∀ r ∈ (train.engine l).roster, (train.point r.point).isBound = true
          ∧ (train.point r.point).address = some ⟨l, r.node⟩)
      ∧ (∀ p, (train.point p).isBound = true → (train.point p).onLink l = true →
          ∃ r ∈ (train.engine l).roster, r.point = p)
      ∧ (train.engine l).queue = [] := by decide +kernel
  refine ⟨by decide +kernel, by decide +kernel, fun l => ?_⟩
  obtain ⟨h1, h2, h3, h4⟩ := lists l
  refine ⟨h1, h2, h3, by simp [h4], by simp [h4], ?_⟩
  rw [quiet l]
  trivial

theorem test_staging_stages_counted : staging.StagesCounted := by
  intro g
  have h : ∀ g, ∀ r ∈ (staging.group g).run, r.done ≤ r.count ∧
      ((staging.group g).state = .staging ∨ (staging.group g).state = .gap ∨ (staging.group g).state = .holding →
        r.done < r.count) := by decide +kernel
  exact h g

/-- The states above have the other invariants too. -/
theorem test_states_have_the_invariants :
    (∀ s ∈ [train.settle, staging, gap, held, jogging], s.Settled)
    ∧ (∀ s ∈ [train.settle, staging, gap, held, jogging], s.LatchFlagged ∧ s.InServiceToMove)
    ∧ (∀ s ∈ [train.settle, staging, gap, held, jogging], s.GroupsHeld) ∧ train.AddressesUnique :=
  ⟨by decide +kernel, by decide +kernel, by decide +kernel, by decide +kernel⟩

/-! ### For each statement with hypotheses, a state and operands that meet them, clause by clause -/

theorem test_hyps_StepTakesTheFrontCommand :
    ({ State.reset with pending := [.stop (.takes ())] } : State).pending = .stop (.takes ()) :: [] := rfl

/-- The pin asserted, the wait, a slot that is due, and none: one in flight, and no point on any link. -/
theorem test_hyps_EmptyQueueStepSendsOrTicks :
    (State.reset.powerOn.pending = [] ∧ State.reset.powerOn.phase = .held)
    ∧ (({ State.reset with phase := .waiting 1 } : State).pending = []
      ∧ ({ State.reset with phase := .waiting 1 } : State).phase = .waiting 1)
    ∧ (train.pending = [] ∧ train.Working ∧ train.due = [.poll 0])
    ∧ ((onWire train (polled false)).pending = [] ∧ (onWire train (polled false)).due = [])
    ∧ (bare.pending = [] ∧ bare.Working ∧ bare.due = []) := by decide +kernel

/-- The slot of an ALL-STOP ends with its time, and the POLL that was due then starts; a POLL's slot that runs out is a
missed reply (R76, R81). -/
theorem test_slots_end :
    (let s := (train.setEngine 0 { train.engine 0 with exchange := some .allStop, slotLeft := some 1 }).tick
     (s.engine 0).exchange = none ∧ (s.engine 0).slotLeft = none ∧ s.pending = [] ∧ s.tick.pending = [.poll 0])
    ∧ (train.setEngine 0 { train.engine 0 with exchange := some (polled false), slotLeft := some 1 }).tick.pending
      = [.missedReply 0] := by decide +kernel

/-- A LINK-RESET over an ALL-STOP in flight begins its break when the slot has ended (R90). -/
theorem test_break_after_all_stop :
    let s := (drafted.setEngine 0 { drafted.engine 0 with exchange := some .allStop, slotLeft := some 1 }).resetLink 0
    (s.engine 0).breakLeft = none ∧ s.due = [] ∧ s.tick.tick.pending = [.breakStart 0]
    ∧ ((s.tick.startBreak 0).engine 0).breakLeft = some 1000 := by decide +kernel

theorem test_hyps_StepKeepsPermitsDrivesAndAttn :
    staging.Settled ∧ ∃ t, step { staging with pending := [.stop (.takes ())] } = .next t :=
  ⟨by decide +kernel, _, rfl⟩

theorem test_hyps_StepKeepsTheStopFlagWithTheLatch :
    State.reset.LatchFlagged ∧ State.reset.stop = true
    ∧ ∃ t, step { State.reset with pending := [.clearAttention (.takes 1)] } = .next t :=
  ⟨by decide +kernel, rfl, _, rfl⟩

theorem test_hyps_StepKeepsAddressesAndRosters :
    train.AddressesUnique ∧ train.RostersMatch
    ∧ ∃ t, step { train with pending := [.enrolPoint (.takes ⟨9, ⟨0, 9⟩⟩)] } = .next t :=
  ⟨by decide +kernel, test_train_rosters_match, _, rfl⟩

theorem test_hyps_StepKeepsJogsAndPlannedPointsToThePlan :
    jogging.InServiceToMove ∧ ∃ t, step { jogging with pending := [.jogTimerExpiry] } = .next t :=
  ⟨by decide +kernel, _, rfl⟩

theorem test_hyps_StepKeepsGroupRecordsInShape :
    staging.GroupsHeld ∧ staging.StagesCounted ∧ ∃ t, step { staging with pending := [.hold (.takes 0)] } = .next t :=
  ⟨by decide +kernel, test_staging_stages_counted, _, rfl⟩

theorem test_hyps_StepKeepsBodiesAndCornersMatched :
    train.SeatsMatch ∧ ∃ t, step { train with pending := [.retireBody (.takes 0)] } = .next t :=
  ⟨test_train_seats_match, _, rfl⟩

/-- The last group. -/
def lastGroup : GroupId := ⟨3, by decide +kernel⟩

/-- R143's rows: DRAFT; stopped; the jog point; a moving member; a member that has arrived. -/
theorem test_hyps_PermitTable :
    ((probed 1 false).point 9).life = .draft
    ∧ (({ train with stop := true } : State).point 0).life = .planned
    ∧ (jogging.jog.active.map (·.point) = some 0 ∧ jogging.stop = false ∧ (jogging.point 0).inhibit = false
      ∧ (jogging.point 0).health = .live ∧ (jogging.point 0).life = .planned)
    ∧ (staging.stop = false ∧ (staging.point 0).life = .planned ∧ (staging.point 0).inhibit = false
      ∧ (staging.point 0).health = .live ∧ staging.jog.active = none ∧ (staging.point 0).group = some 0
      ∧ (staging.group 0).run = some ⟨400, 100, 2, 4, 0, 0⟩ ∧ (staging.group 0).state = .staging
      ∧ (staging.point 0).arrived = false ∧ (staging.point 0).followHeld = false)
    ∧ ((gap.point 0).life = .planned ∧ gap.stop = false ∧ gap.jog.active = none ∧ (gap.group 0).state ≠ .staging)
    ∧ (∀ f ∈ [LineFunction.generalOut, .beacon, .faultLamp, .groupMoving],
        f.isInput = false ∧ f.takesParameter (if f = .groupMoving then .group lastGroup else .absent) = true)
    ∧ (train.line 0).function.isInput = true := by
  decide +kernel

/-- What R143's table gives there: nothing, HOLD or NONE by the height, RAISE, RAISE; and R167's lamps. -/
theorem test_permits_and_drives :
    (probed 1 false).permitOf 9 ((probed 1 false).point 9) = .none
    ∧ ({ train with stop := true } : State).permitOf 0 { train.point 0 with height := some 1020 } = .none
    ∧ ({ train with stop := true } : State).permitOf 0 { train.point 0 with height := some 1021 } = .hold
    ∧ jogging.permitOf 0 (jogging.point 0) = .raise ∧ staging.permitOf 0 (staging.point 0) = .raise
    ∧ gap.permitOf 0 (gap.point 0) = .none
    ∧ staging.driveOf { train.line 0 with function := .groupMoving, parameter := .group 0 } = some .high
    ∧ staging.driveOf { train.line 0 with function := .groupMoving, parameter := .group 1 } = some .low
    ∧ held.driveOf { train.line 0 with function := .faultLamp, polarity := .activeLow } = some .low := by decide +kernel

theorem test_hyps_NoMotionWhileStopped : staging.PermitsFollow ∧ (staging.point 0).permit = .raise := by decide +kernel

theorem test_hyps_RefusedRequestsChangeNothing :
    train.Working ∧ requestCode (.hold (.takes 4)) = some 0x44
    ∧ ∃ t, exec (.hold (.takes 4)) train = .next t ∧ t.port.last.status.actedOn = false :=
  ⟨rfl, rfl, _, rfl, by decide +kernel⟩

theorem test_hyps_RequestsNotTaken :
    (train.Working ∧ Instr.nop .illFormed ∈ illFormedRequests)
    ∧ requestCode (.stop (.takes ())) = some 0x52 ∧ requestCode (.nop (.takes ())) = none
    ∧ State.reset.powerOn.phase = .held
    ∧ ({ State.reset with phase := .waiting 2000 } : State).phase = .waiting 2000 := by decide +kernel

theorem test_hyps_SelectorRequests :
    (train.Working ∧ (47 : PointId).val = (⟨some 47, some .body⟩ : SelectOps).focus.getD train.port.focus.val)
    ∧ (0 : PointId).val = (⟨none, none⟩ : SelectOps).focus.getD train.port.focus.val
    ∧ ((⟨some 48, none⟩ : SelectOps).focus = some 48 ∧ 48 ≤ 48)
    ∧ (∀ b ∈ [(4 : Byte), 254], 4 ≤ b.toNat ∧ b.toNat ≤ 254)
    ∧ (∀ a ∈ [(⟨4, 1⟩ : AddressOp), ⟨3, 0⟩, ⟨3, 16⟩], ¬ (a.link ≤ 3 ∧ 1 ≤ a.node ∧ a.node ≤ 15))
    ∧ (12 ≤ 12 ∧ 4 ≤ (4 : Byte).toNat)
    ∧ (train.AddressesUnique ∧ 1 ≤ (1 : NodeAddr).val ∧ (train.point 0).life ≠ .vacant
      ∧ (train.point 0).address = some ⟨0, 1⟩)
    ∧ (1 ≤ (15 : NodeAddr).val ∧ ∀ p, (train.point p).life ≠ .vacant → (train.point p).address ≠ some ⟨3, 15⟩)
    ∧ (train.body 0 = some car ∧ train.body 11 = none) := by
  refine ⟨?_, ?_, ?_, ?_, ?_, ?_, ⟨?_, ?_⟩, ?_, ?_⟩
  · decide +kernel
  · decide +kernel
  · decide +kernel
  · decide +kernel
  · decide +kernel
  · decide +kernel
  · decide +kernel
  · decide +kernel
  · decide +kernel
  · decide +kernel

theorem test_hyps_FramesThatCarryNoRequest :
    train.Working ∧ train.phase ≠ .held ∧ ({ train with phase := .waiting 1 } : State).phase ≠ .held := by decide +kernel

theorem test_hyps_PartResetResult :
    (train.Working ∧ train.PlanOpen) ∧ (staging.Working ∧ ¬ staging.PlanOpen) := by decide +kernel

theorem test_hyps_ResetPinAndStartUp :
    State.reset.powerOn.phase = .held
    ∧ ({ State.reset with phase := .waiting 0 } : State).phase = .waiting 0 := by decide +kernel

theorem test_hyps_ReadRequestsAnswer : train.Working ∧ 12 ≤ 12 ∧ 128 ≤ 128 ∧ 4 ≤ 4 := ⟨rfl, by decide, by decide, by decide⟩

/-- A VACANT point, an EMPTY body and record, a FREE group and an IDLE jog beside their opposites; the ends of a signed
height. -/
theorem test_hyps_ReadPayloadLayouts :
    ((train.point 9).life = .vacant ∧ (train.point 0).life ≠ .vacant)
    ∧ (train.body 11 = none ∧ train.body 0 = some car)
    ∧ (train.constraint 127 = none ∧ train.constraint 0 = some side)
    ∧ ((staging.group lastGroup).state = .free ∧ (staging.group 0).state ≠ .free)
    ∧ (train.jog.active = none ∧ jogging.jog.active = some ⟨0, 50, 1000, 30000000⟩)
    ∧ ((-32767 : Int).natAbs ≤ 32767 ∧ (32767 : Int) < 32768 ∧ (-32768 : Int) < -32767) := by decide +kernel

/-- The payloads of a group, a jog, the link with a queue, the plan and the lines, written out or by their lengths. -/
theorem test_read_payloads :
    groupPayload staging lastGroup = [0x00] ∧ (groupPayload staging 0).length = 4 + 2 + 2 + 1 + 6 + 1 + 2 + 2 + 4 * 11
    ∧ jogPayload jogging = [1, 0, 0xFF, 0, 0, 50, 3, 0xE8, 4, 0x1A, 3, 0xE8, 0, 0, 0, 30]
    ∧ linkPayload (probed 2 false) 0 = [1, 0xFF, 0xFF, 0, 4, 1, 0, 1, 0, 0, 2, 1, 1, 0, 0, 3, 2, 1, 0, 0, 4, 3, 1, 0, 0,
        1, 9, 9, 2, 5]
    ∧ planPayload train = [3, 0, 0xFF, 1, 1, 0, 127, 4]
    ∧ (linesPayload train).length = 12 * 7 + 6 := by decide +kernel

/-- 36 bytes for a point with one constraint, 2 for a VACANT one (R188). -/
theorem test_point_payloads :
    (pointPayload train 0).length = 36 ∧ pointPayload train 9 = [0x09, 0x00] := by decide +kernel

/-- The last node address. -/
def lastNode : NodeAddr := ⟨15, by decide +kernel⟩

/-- Operands at the ends of their ranges; a point that is not VACANT, an address that another holds; a probe that is
under way, a point that is no DRAFT. -/
theorem test_hyps_EnrolAndBind :
    (train.Working ∧ 1 ≤ lastNode.val ∧ (train.point lastPoint).life = .vacant
      ∧ ∀ q, (train.point q).life ≠ .vacant → (train.point q).address ≠ some ⟨lastLink, lastNode⟩)
    ∧ (¬ (48 < 48) ∧ ¬ (4 < 4) ∧ ¬ (1 ≤ 0) ∧ ¬ (16 ≤ 15))
    ∧ ((train.point 0).life ≠ .vacant ∧ (train.point 0).address = some ⟨0, 1⟩)
    ∧ (let s := (probed 3 false).noAnswer 0 9
       s.Working ∧ (s.point 9).life = .draft ∧ (s.point 9).bindOutcome ≠ .pending
        ∧ (s.point 9).address = some ⟨0, 9⟩)
    ∧ (((probed 1 false).point 9).bindOutcome = .pending ∧ (train.point 0).life ≠ .draft
      ∧ (train.point 0).bindOutcome ≠ .pending) := by decide +kernel

/-- The status and payload that a request is answered with. -/
def answerOf (c : Instr) (s : State) : Option (Status × List Byte) :=
  match exec c s with
  | .next t => some (t.port.last.status, t.port.last.payload)
  | .fault _ => none
  | .refused _ => none

/-- The refusals of ENROL-POINT and BIND, in their order (R39). -/
theorem test_enrol_and_bind_refusals :
    answerOf (.enrolPoint (.takes ⟨0, ⟨0, 2⟩⟩)) train = some (.refusedState, [0x01, 0])
    ∧ answerOf (.enrolPoint (.takes ⟨9, ⟨0, 2⟩⟩)) train = some (.conflict, [0x01, 1])
    ∧ answerOf (.bind (.takes 9)) (probed 1 false) = some (.busy, [0x01, 9])
    ∧ answerOf (.bind (.takes 3)) train = some (.refusedState, [0x01, 3]) := by decide +kernel

/-- A point that may leave; one that is VACANT, one under a body, one that a CUSTOM record names. -/
theorem test_hyps_RetirePointResult :
    (let s := probed 1 false
     s.Working ∧ (s.point 9).life ≠ .vacant ∧ (s.point 9).seat = none
      ∧ (∀ c, ∀ x ∈ s.constraint c, x.kind = .custom → 9 ∉ x.terms.points) ∧ (s.point 9).address = some ⟨0, 9⟩)
    ∧ (48 ≤ 48 ∧ (train.point 9).life = .vacant ∧ (train.point 0).seat = some ⟨0, .ll⟩)
    ∧ (let s := train.setConstraint 127 (some ⟨.custom, .two spare 0, 1, 50, .idle, none, none⟩)
       (s.point spare).seat = none ∧ (s.constraint 127).any (fun x => x.terms.points.contains spare) = true) := by
  decide +kernel

theorem test_hyps_RecaptureRestResult :
    (train.Working ∧ train.plan.state ≠ .inService ∧ (train.point 0).life = .planned ∧ (train.point 0).health = .live
      ∧ (train.point 0).height = some 1000)
    ∧ ((drafted.point 0).life = .bound ∧ drafted.plan.state ≠ .inService)
    ∧ (staging.Working ∧ staging.plan.state = .inService)
    ∧ (48 ≤ 48 ∧ (train.point 9).life = .vacant) := by decide +kernel

/-- Scope ONE on the focus 0 with a derating and an inhibit, one of which changes, and both as they stand. -/
theorem test_hyps_AmendPointResult_values :
    ∀ inhibit ∈ [true, false],
      let o : AmendPointOps := ⟨none, some 3500, some inhibit⟩
      train.Working ∧ o.address = none ∧ (o.derated.isSome ∨ o.inhibit.isSome)
      ∧ (∀ d ∈ o.derated, 1 ≤ d ∧ d ≤ 6000) ∧ train.scopeSet = some [0]
      ∧ (∀ p ∈ [(0 : PointId)], ∀ d ∈ o.derated,
          ((train.point p).life = .bound ∨ (train.point p).life = .planned)
            ∧ ∀ k ∈ (train.point p).ratedCapacity, d ≤ k)
      ∧ (∀ p ∈ [(0 : PointId)], o.inhibit.isSome → (train.point p).life ≠ .vacant)
      ∧ (train.point 0).derated = some 3500 ∧ (train.point 0).inhibit = false := by decide +kernel

/-- An address on a BOUND focus: a new one on another link, on its own link, and the one it holds; the refusals of a
focus that is VACANT, of a set that the focus has not, and of a derating above the rated capacity. -/
theorem test_hyps_AmendPointResult_address :
    (∀ a ∈ [(⟨lastLink, lastNode⟩ : Address), ⟨0, lastNode⟩, ⟨0, 1⟩],
      drafted.Working ∧ 1 ≤ a.node.val ∧ drafted.port.scope = .one ∧ drafted.PlanOpen
      ∧ (drafted.point drafted.port.focus).life = .bound
      ∧ (∀ q, q ≠ drafted.port.focus → (drafted.point q).life ≠ .vacant → (drafted.point q).address ≠ some a)
      ∧ (drafted.point drafted.port.focus).address = some ⟨0, 1⟩)
    ∧ ¬ (6001 ≤ 6000)
    ∧ (let s : State := { drafted with port := { drafted.port with focus := lastPoint, scope := .body } }
       s.scopeSet = none ∧ s.port.scope ≠ .one ∧ (s.point s.port.focus).life = .vacant)
    ∧ (train.point 0).ratedCapacity.any (· < 3501) = true := by decide +kernel

/-- The train with its body retired: four BOUND points in no body. -/
def loose : State := (drafted.writeBody 0 none).planTo .empty

/-- A body joined to the car. -/
def second : Body := ⟨1, 4, 5, 6, 7, .closed, 100, 300, 60, none⟩

/-- The second body. -/
def secondBody : BodyId := ⟨1, by decide +kernel⟩

/-- Two cars joined, on eight columns of two links, in a COMPILED plan. -/
def coupled : State :=
  (((((train.setBody secondBody (some second)).setPoint 4 { column .ll 1 [] with address := some ⟨1, 1⟩, seat := some ⟨1, .ll⟩ }).setPoint
    5 { column .lr 2 [] with address := some ⟨1, 2⟩, seat := some ⟨1, .lr⟩ }).setPoint
    6 { column .tl 3 [] with address := some ⟨1, 3⟩, seat := some ⟨1, .tl⟩ }).setPoint
    7 { column .tr 4 [] with address := some ⟨1, 4⟩, seat := some ⟨1, .tr⟩ })

/-- The focus on point 0 with a scope. -/
def choosing (s : State) (sc : Scope) : State := { s with port := { s.port with scope := sc } }

/-- A load above its derating, one at it, one unknown; each scope, with the body or the group it needs and without; an
address amendment of a point in a body and of one in none. -/
theorem test_hyps_AmendPointResult_scopes :
    (let s := train.setPoint 0 { train.point 0 with load := some 3501 }
     (s.point 0).load = some 3501 ∧ (s.point 0).derated = some 3500)
    ∧ ((train.setPoint 0 { train.point 0 with load := some 3500 }).point 0).overloaded = false
    ∧ (train.point spare).load = none
    ∧ ((choosing train .one).port.scope = .one ∧ (choosing train .all).port.scope = .all)
    ∧ ((choosing train .body).port.scope = .body ∧ (train.point train.port.focus).seat = some ⟨0, .ll⟩
      ∧ train.body 0 = some car ∧ (loose.point loose.port.focus).seat = none)
    ∧ ((choosing staging .group).port.scope = .group ∧ (staging.point staging.port.focus).group = some 0
      ∧ (train.point train.port.focus).group = none)
    ∧ ((drafted.point 0).address = some ⟨0, 1⟩ ∧ (drafted.point 0).seat = some ⟨0, .ll⟩)
    ∧ (((probed 1 false).point spare).address = some ⟨0, 9⟩ ∧ ((probed 1 false).point spare).seat = none) := by
  refine ⟨?_, ?_, ?_, ?_, ?_, ?_, ?_, ?_⟩
  · decide +kernel
  · decide +kernel
  · decide +kernel
  · decide +kernel
  · decide +kernel
  · decide +kernel
  · decide +kernel
  · decide +kernel

/-- The scope sets of the train's focus (R179), and the skew entry that an address amendment takes away (R107). -/
theorem test_scope_sets :
    (choosing coupled .one).scopeSet = some [0] ∧ (choosing coupled .body).scopeSet = some [0, 1, 2, 3]
    ∧ (choosing coupled .group).scopeSet = none ∧ (choosing staging .group).scopeSet = some [0, 1, 2, 3]
    ∧ (choosing coupled .all).scopeSet = some [0, 1, 2, 3, 4, 5, 6, 7]
    ∧ ((drafted.setSkew 0 true).readdress 0 ⟨0, lastNode⟩).skew.at 0 = false := by decide +kernel

/-- A move to an address of another link leaves the old roster and joins the new queue; the last to leave takes the old
link to IDLE (R31, R75, R84). -/
theorem test_amend_point_moves :
    (let s := drafted.readdress 0 ⟨lastLink, lastNode⟩
     (s.engine 0).roster = [⟨2, 1, 0⟩, ⟨3, 2, 0⟩, ⟨4, 3, 0⟩] ∧ (s.engine 0).link = .running
      ∧ (s.engine 3).queue = [0] ∧ (s.engine 3).link = .running ∧ (s.point 0).life = .draft)
    ∧ (((((drafted.readdress 0 ⟨3, 1⟩).readdress 1 ⟨3, 2⟩).readdress 2 ⟨3, 3⟩).readdress 3 ⟨3, 4⟩).engine 0).link
      = .idle := by decide +kernel

/-- The last body id. -/
def lastBody : BodyId := ⟨11, by decide +kernel⟩

/-- The last constraint id. -/
def lastConstraint : ConstraintId := ⟨127, by decide +kernel⟩

/-- A body that may be defined; a plan in service, a body that is DEFINED, a corner that has a seat; operands just out of
their ranges; a point that is no corner. -/
theorem test_hyps_DefineBodyResult :
    (loose.Working ∧ loose.PlanOpen ∧ loose.AllFree ∧ loose.body lastBody = none ∧ [(3 : PointId), 2, 1, 0].Nodup
      ∧ ((0 : Position) = 0 → Joint.none = .none)
      ∧ (∀ n ∈ [1, 2000], 1 ≤ n ∧ n ≤ 2000)
      ∧ (∀ p ∈ [(3 : PointId), 2, 1, 0], (loose.point p).life ≠ .vacant ∧ (loose.point p).seat = none)
      ∧ ∀ c, ∀ x ∈ loose.body c, x.position ≠ 0)
    ∧ (staging.plan.state = .inService ∧ (drafted.body 0).isSome ∧ (drafted.point 0).seat.isSome)
    ∧ (¬ (12 < 12) ∧ ¬ (48 < 48) ∧ ¬ [0, 0, 1, 2].Nodup ∧ ¬ (1 ≤ 0))
    ∧ (car.corners.Nodup ∧ spare ∉ car.corners) := by decide +kernel

/-- The refusals that R8 and R10 order: the lock, the body's life, a corner's seat, the position. -/
theorem test_define_body_refusals :
    let c (b : Nat) : Instr := .defineBody (.takes ⟨b, 0, 0, 1, 2, 3, .none, .default_, .default_, .default_⟩)
    answerOf (c 0) staging = some (.refusedLocked, [])
    ∧ answerOf (c 0) train = some (.refusedState, [])
    ∧ answerOf (c 1) train = some (.refusedState, [0x01, 0])
    ∧ answerOf (c 1) (loose.setBody 0 (some { car with ll := spare })) = some (.conflict, [0x02, 0]) := by decide +kernel

/-- The corners LL and LR exchanged; a limit at its greatest; every field as it stands. -/
theorem test_hyps_AmendBodyResult :
    ∀ o ∈ [({ body := 0, position := none, joint := none, ll := some 1, lr := some 0, tl := none, tr := none,
              side := none, end_ := none, twist := none } : AmendBodyOps),
           { body := 0, position := none, joint := none, ll := none, lr := none, tl := none, tr := none,
             side := some (.value 2000), end_ := none, twist := none },
           { body := 0, position := some 0, joint := none, ll := none, lr := none, tl := none, tr := none,
             side := none, end_ := none, twist := none }],
      train.Working ∧ train.PlanOpen ∧ train.AllFree ∧ train.body 0 = some car ∧ o.body = (0 : BodyId).val ∧ o.ok = true
      ∧ (car.amend o).corners.Nodup ∧ ((car.amend o).position = 0 → (car.amend o).joint = .none)
      ∧ (∀ p ∈ (car.amend o).corners, p ∉ car.corners → (train.point p).life ≠ .vacant ∧ (train.point p).seat = none)
      ∧ ∀ c, c ≠ 0 → ∀ y ∈ train.body c, y.position ≠ (car.amend o).position := by decide +kernel

/-- Corners that would not be distinct, a joint at position 0, no field given; an EMPTY body, with operands that R12
refuses and with operands that it does not; a plan in service. -/
theorem test_hyps_AmendBodyResult_refusals :
    let o : AmendBodyOps :=
      { body := 0, position := none, joint := none, ll := none, lr := some 0, tl := none, tr := none
        side := none, end_ := none, twist := none }
    ¬ (car.amend o).corners.Nodup ∧ o.ok = true
    ∧ ((car.amend { o with joint := some .closed }).position = 0
      ∧ (car.amend { o with joint := some .closed }).joint ≠ .none)
    ∧ AmendBodyOps.ok { o with lr := none } = false
    ∧ (train.body 11 = none ∧ AmendBodyOps.ok { o with body := 11 } = true ∧ [o.ll, o.lr, o.tl, o.tr].reduceOption.Nodup)
    ∧ ¬ [some 0, o.lr, o.tl, o.tr].reduceOption.Nodup
    ∧ staging.plan.state = .inService := by decide +kernel

theorem test_hyps_RetireBodyResult :
    (train.Working ∧ train.PlanOpen ∧ train.AllFree ∧ train.SeatsMatch ∧ train.body 0 = some car)
    ∧ (12 ≤ 12 ∧ train.body 11 = none ∧ (staging.group 0).state ≠ .free) :=
  ⟨⟨rfl, by decide +kernel, by decide +kernel, test_train_seats_match, by decide +kernel⟩, by decide +kernel⟩

/-- Every record of the constraint table CUSTOM. -/
def full : State :=
  { drafted with constraints := Vector.replicate 128 (some ⟨.custom, .two 0 1, 2000, 100, .idle, none, none⟩) }

/-- The lowest EMPTY id, a full table, the greatest id; operands just out of their ranges; a plan in service, a term in
no body, a record that is not CUSTOM; a plan that falls and one that does not. -/
theorem test_hyps_AddAndRetireConstraint :
    (train.Working ∧ train.PlanOpen ∧ train.AllFree ∧ (Terms.four 0 1 2 3).points.Nodup
      ∧ (∀ p ∈ (Terms.four 0 1 2 3).points, (train.point p).seat.isSome)
      ∧ train.constraint 1 = none ∧ ∀ d : ConstraintId, d.val < 1 → (train.constraint d).isSome)
    ∧ (full.Working ∧ full.PlanOpen ∧ full.AllFree ∧ (∀ p ∈ (Terms.two 0 1).points, (full.point p).seat.isSome)
      ∧ ∀ c, (full.constraint c).isSome)
    ∧ (full.constraint 127).any (fun x => x.kind == .custom) = true
    ∧ (¬ (3 = 2 ∨ 3 = 4) ∧ ¬ (2001 ≤ 2000) ∧ ¬ (50 ≤ 49) ∧ 128 ≤ 128)
    ∧ (staging.plan.state = .inService ∧ (train.point spare).seat = none ∧ side.kind ≠ .custom)
    ∧ (train.plan.state = .compiled ∧ drafted.plan.state ≠ .compiled) := by decide +kernel

/-- In a COMPILED plan; in service with a limit that falls, and one that rises; in a DRAFTED plan; operands out of range;
a compilation that runs, an EMPTY record. -/
theorem test_hyps_AmendConstraintResult :
    (train.Working ∧ train.constraint 0 = some side ∧ train.plan.state ≠ .compiling ∧ train.plan.state ≠ .empty)
    ∧ (staging.constraint 0 = some side ∧ staging.plan.state = .inService ∧ 99 ≤ side.limit ∧ side.limit < 101)
    ∧ (full.plan.state = .drafted ∧ (full.constraint 0).isSome)
    ∧ (¬ (128 < 128) ∧ ¬ (1 ≤ 0))
    ∧ (drafted.beginCompile.plan.state = .compiling ∧ train.constraint 127 = none) := by decide +kernel

/-- The first body. -/
def firstBody : BodyId := ⟨0, by decide +kernel⟩

/-- The worked numbers of R95: limit 47, warn percent 85. -/
theorem test_judge_value :
    judgeValue true 0 47 85 = .blind ∧ judgeValue false 48 47 85 = .breach ∧ judgeValue false (-40) 47 85 = .warn
    ∧ judgeValue false 39 47 85 = .clear ∧ judgeValue false 47 47 100 = .clear ∧ judgeValue false 48 47 100 = .breach := by
  decide +kernel

/-- The moving train with point 0 at a height, and perhaps LOST. -/
def leaning (h : Nat) (health : Health) : State :=
  staging.setPoint 0 { staging.point 0 with height := some h, health := health }

/-- Each state that an evaluation can give, entered by constraint 0 of a moving group; a group that no term names; the
jog of a term point and that of another; four lifts; a plan that judges and one that does not. -/
theorem test_hyps_EvaluationFollowsItsTable :
    (∀ y ∈ [((1000, .live), .clear), ((1080, .live), .clear), ((1081, .live), .warn), ((1101, .live), .breach),
           ((1000, .lost), (.blind : ConstraintState))],
      let s := leaning y.1.1 y.1.2
      s.constraint 0 = some side ∧ s.constraintValue side.terms = some ((y.1.1 : Int) - 1000)
      ∧ judgeValue (s.anyTermLost side.terms) ((y.1.1 : Int) - 1000) side.limit side.warn = y.2
      ∧ (s.point 0).group = some 0 ∧ (s.group 0).state = .staging ∧ ∀ p ∈ side.terms.points, (s.point p).group ≠ some 1)
    ∧ (jogging.jog.active.map (·.point) = some 0 ∧ (0 : PointId) ∈ side.terms.points
      ∧ (2 : PointId) ∉ side.terms.points)
    ∧ (∀ p ∈ [(0 : PointId), 1, 2, 3], (train.point p).lift = some 0)
    ∧ (train.plan.state = .compiled ∧ drafted.plan.state = .drafted) := by decide +kernel

/-- Entering BREACH holds the group and sets HELD and BREACH; entering WARN holds nothing (R98). -/
theorem test_evaluations_enter :
    (let s := (leaning 1101 .live).evaluate 0
     (s.group 0).state = .holding ∧ s.attention.isSet (.held 0) = true ∧ s.attention.isSet .breach = true)
    ∧ (let s := (leaning 1081 .live).evaluate 0
       (s.group 0).state = .staging ∧ s.attention.isSet (.held 0) = false ∧ s.attention.isSet .warn = true) := by
  decide +kernel

/-- The three rows of section 5.6's table of corner loads: 420, 410, 380, 390; 1,000 and three of 200; one below the
contact load. -/
theorem test_skew_rows :
    (∀ y ∈ [([420, 410, 380, 390], false), ([1000, 200, 200, 200], true), ([1160, 250, 150, 40], false)],
      (train.mapPoints fun p x => { x with load := y.1[p.val]? }).skewed car = y.2) := by decide +kernel

/-- A condition absent and one present, on a member of a moving group and on a jog point; a body that becomes skewed. -/
theorem test_hyps_ConditionsAndSkewAppear :
    ((staging.point 0).hasCondition .overload = false ∧ (staging.point 0).group = some 0
      ∧ (staging.group 0).state = .staging ∧ (gap.group 0).state = .gap)
    ∧ ((staging.setPoint 0 { staging.point 0 with conditions := 1 }).point 0).hasCondition .overload = true
    ∧ (jogging.jog.active.map (·.point) = some 0 ∧ (jogging.point 0).hasCondition .stroke = false
      ∧ (train.point spare).seat = none ∧ (train.point 0).seat = some ⟨0, .ll⟩)
    ∧ (let s := staging.mapPoints fun p x => { x with load := [1000, 200, 200, 200][p.val]? }
       s.body 0 = some { car with group := some 0 } ∧ s.skewed { car with group := some 0 } = true
        ∧ s.skew.at 0 = false) := by
  refine ⟨?_, ?_, ?_, ?_⟩
  · decide +kernel
  · decide +kernel
  · decide +kernel
  · decide +kernel

/-- A plan that may be compiled, from DRAFTED and from COMPILED, one that may be released; a plan that is EMPTY, one in
service with a group formed, with a jog, with a column raised. -/
theorem test_hyps_CompileAndRelease :
    (drafted.Working ∧ drafted.plan.state = .drafted ∧ drafted.AllFree)
    ∧ (train.Working ∧ train.plan.state = .compiled ∧ train.AllFree)
    ∧ (let s : State := { train with plan := { train.plan with state := .inService } }
       s.Working ∧ s.plan.state = .inService ∧ s.AllFree ∧ s.jog.active = none
        ∧ ∀ p, (s.point p).life = .planned → s.raised p = false)
    ∧ (loose.plan.state = .empty ∧ (staging.group 0).state ≠ .free ∧ jogging.jog.active.isSome) := by decide +kernel

/-- The refusals of RELEASE-PLAN, in R73's order. -/
theorem test_release_refusals :
    answerOf (.releasePlan (.takes ())) train = some (.refusedState, [])
    ∧ answerOf (.releasePlan (.takes ())) staging = some (.refusedState, [0x04, 0])
    ∧ answerOf (.releasePlan (.takes ())) jogging = some (.refusedState, [0x01, 0])
    ∧ (let s : State := { train.setPoint 2 { train.point 2 with height := some 1021 } with
        plan := { train.plan with state := .inService } }
       answerOf (.releasePlan (.takes ())) s = some (.refusedState, [0x01, 2])) := by decide +kernel

/-- The drafted train with CUSTOM records on points 0 and 1 at the first ids. -/
def crowded (n : Nat) : State :=
  { drafted with constraints := drafted.constraints.mapAll fun c x =>
      if c.val < n then some ⟨.custom, .two 0 1, 2000, 100, .idle, none, none⟩ else x }

/-- The drafted train with one CUSTOM record that names a point in no body. -/
def outside : State := drafted.setConstraint lastConstraint (some ⟨.custom, .two 0 spare, 1, 50, .idle, none, none⟩)

/-- The outcome of a build, or the index that it gave point 0. -/
def built (s : State) : PlanOutcome × Option Offending × List ConstraintId :=
  match s.build 40 80 with
  | .ok t => (.success, none, (t.point 0).index)
  | .error f => (f.1, some f.2, [])

/-- The check phase passes, so that the build decides. -/
abbrev Checked (s : State) : Prop :=
  (∀ z ∈ s.bodiesInOrder, s.checkBody z.1 z.2 = none)
    ∧ ∀ c, ∀ x ∈ s.constraint c, x.kind = .custom → ∀ p ∈ x.terms.points, (s.point p).seat ≠ none

/-- A compilation under way; one body not BOUND; a term in no body; the checks passed and the table full, the index full,
and room in both. -/
theorem test_hyps_CompilationCompletes :
    (let s := drafted.beginCompile
     s.Working ∧ s.plan.state = .compiling ∧ s.plan.compilation = some ⟨40, 80, 3000⟩
      ∧ built s = (.success, none, [0, 2, 4]))
    ∧ built (drafted.setPoint 2 { drafted.point 2 with life := .draft }) = (.notBound, some (.point 2), [])
    ∧ (built outside = (.termOutside, some (.constraint lastConstraint), [])
      ∧ ∀ z ∈ outside.bodiesInOrder, outside.checkBody z.1 z.2 = none)
    ∧ (built (crowded 128) = (.tableFull, some (.body 0), []) ∧ Checked (crowded 128))
    ∧ (built (crowded 6) = (.indexFull, some (.point 0), []) ∧ Checked (crowded 6))
    ∧ (built (crowded 5) = (.success, none, [0, 1, 2, 3, 4, 5, 7, 9]) ∧ Checked (crowded 5)) := by
  refine ⟨?_, ?_, ?_, ?_, ?_, ?_⟩
  · decide +kernel
  · decide +kernel
  · decide +kernel
  · decide +kernel
  · decide +kernel
  · decide +kernel

/-- The first record. -/
def firstConstraint : ConstraintId := ⟨0, by decide +kernel⟩

/-- The drafted train being compiled, its CUSTOM record on points 0 and 1, as point 0 stands higher by some millimetres. -/
def compiling (h : Nat) : State :=
  (drafted.setPoint 0 { drafted.point 0 with height := some (1000 + h) }).setConstraint firstConstraint
    (some ⟨.custom, .two 0 1, 40, 50, .idle, none, none⟩) |>.beginCompile

/-- A compilation with its groups FREE and no jog, whose record enters CLEAR, WARN and BREACH, and BLIND where its point
is LOST. -/
theorem test_hyps_CompilationCompletes_evaluations :
    (∀ h ∈ [0, 30, 45], (compiling h).InServiceToMove ∧ (compiling h).plan.state = .compiling)
    ∧ (∀ y ∈ [(0, ConstraintState.clear), (30, .warn), (45, .breach)],
        judgeValue ((compiling y.1).anyTermLost (.two 0 1)) y.1 40 50 = y.2
        ∧ (compiling y.1).constraintValue (.two 0 1) = some (y.1 : Int))
    ∧ judgeValue true 0 40 50 = .blind := by
  refine ⟨?_, ?_, ?_⟩
  · decide +kernel
  · decide +kernel
  · decide +kernel

/-- A compilation that succeeds sets PLAN, and WARN or BREACH with it where its records enter those states (R63, R101). -/
theorem test_compilation_flags :
    ∀ y ∈ [(0, false, false), (30, true, false), (45, false, true)],
      let s := (compiling y.1).completeCompile
      s.plan.state = .compiled ∧ s.attention.isSet .plan = true ∧ s.attention.isSet .warn = y.2.1
        ∧ s.attention.isSet .breach = y.2.2 := by decide +kernel

/-- A body whose CLOSED joint meets nothing. -/
def orphan : Body := { car with position := 5, joint := .closed }

/-- A CLOSED joint with no body before it, across a gap, and to its neighbour (R59). -/
theorem test_hyps_CompilationCompletes_joints :
    (let s := drafted.setBody firstBody (some orphan)
     (∀ p ∈ orphan.corners, (s.point p).life = .bound) ∧ orphan.joint = .closed ∧ s.leadingNeighbour orphan = none
      ∧ s.checkBody firstBody orphan = some (.jointOrphan, .body firstBody))
    ∧ (let s := drafted.setBody 1 (some orphan)
       s.leadingNeighbour orphan = none ∧ s.checkBody 1 orphan = some (.positionGap, .body 1))
    ∧ (second.joint = .closed ∧ (drafted.setBody 1 (some second)).leadingNeighbour second = some (0, car))
    ∧ car.joint ≠ .closed := by decide +kernel

theorem test_hyps_FormAndDisband :
    (let s := train
     let g : GroupId := lastGroup
     s.Working ∧ [(0 : BodyId)].Nodup ∧ 1 ≤ [(0 : BodyId)].length ∧ (s.group g).state = .free
      ∧ s.plan.state = .compiled
      ∧ (∀ b ∈ [(0 : BodyId)], ∃ x ∈ s.body b, x.group = none)
      ∧ (∀ p ∈ s.cornersOf [0], (s.point p).life = .planned ∧ (s.point p).health = .live
        ∧ ∀ j ∈ s.jog.active, j.point ≠ p)
      ∧ (∀ b ∈ [(0 : BodyId)], ∀ x ∈ s.body b, x.joint ≠ .closed ∧ s.trailingNeighbour x = none))
    ∧ (∀ st ∈ [GroupState.formed, .arrived],
        let s := inGroup st none 0
        s.Working ∧ s.plan.state ≠ .compiling ∧ (s.group 0).state = st)
    ∧ (¬ (4 < 4) ∧ ¬ (1 ≤ 0) ∧ ¬ (12 < 12) ∧ ¬ [1, 1].Nodup ∧ 4 ≤ 4) := by
  refine ⟨?_, ?_, ?_⟩
  · decide +kernel
  · decide +kernel
  · decide +kernel

/-- The refusals of FORM-GROUP and DISBAND: the group's state, the plan, a body, a point, a split joint at either end
(R113, R137). -/
theorem test_group_refusals :
    answerOf (.formGroup (.takes ⟨0, [0]⟩)) staging = some (.refusedState, [0x06, 2])
    ∧ answerOf (.formGroup (.takes ⟨0, [0]⟩)) drafted = some (.refusedState, [])
    ∧ answerOf (.formGroup (.takes ⟨1, [0]⟩)) staging = some (.refusedState, [0x02, 0])
    ∧ answerOf (.formGroup (.takes ⟨1, [0]⟩)) jogging = some (.refusedState, [0x01, 0])
    ∧ answerOf (.formGroup (.takes ⟨0, [1]⟩)) coupled = some (.refusedState, [0x08, 1, 0])
    ∧ answerOf (.formGroup (.takes ⟨0, [0]⟩)) coupled = some (.refusedState, [0x08, 1, 0])
    ∧ answerOf (.formGroup (.takes ⟨0, [1, 0]⟩)) coupled = some (.done, [])
    ∧ answerOf (.disband (.takes 0)) staging = some (.refusedState, []) := by decide +kernel

/-- Travel and step at both ends of their ranges, from FORMED and from ARRIVED. -/
theorem test_hyps_StartResult :
    ∀ st ∈ [GroupState.formed, .arrived],
      let s := inGroup st none 0
      s.Working ∧ s.plan.state ≠ .compiling ∧ (1 : Int) ≠ 0 ∧ (18000 : Int).natAbs ≤ 25000 ∧ 100 ≤ s.limits.maxStep
      ∧ (s.group 0).state = st ∧ s.stop = false ∧ s.NoneAsserted .pitGate
      ∧ (∀ p ∈ s.members 0, (s.point p).runOk s.limits.liftCeiling 18000 100 = true
        ∧ (s.point p).runOk s.limits.liftCeiling 1 10 = true
        ∧ (s.point p).health = .live ∧ (s.point p).inhibit = false ∧ (s.point p).conditions = 0
        ∧ ∀ c ∈ (s.point p).index, ∀ x ∈ s.constraint c, x.state ≠ .breach ∧ x.state ≠ .blind)
      ∧ ∀ b ∈ (s.group 0).members, s.skew.at b = false := by
  intro st h
  refine ⟨rfl, ?_, by decide, by decide, ?_, rfl, ?_, ?_, ?_, ?_⟩ <;> revert st <;> decide +kernel

/-- The group formed, with a run that may start. -/
def formed : State := inGroup .formed none 0

/-- The refusals of START in the order of R116 and R117: the operands, a target, the group, the latch, a gate, a point, a
constraint, a skew. -/
theorem test_start_refusals :
    let c (travel : Int) : Instr := .start (.takes ⟨0, travel, 10, 0⟩)
    answerOf (c 0) formed = some (.refusedRange, [])
    ∧ answerOf (c 18001) formed = some (.refusedRange, [0x01, 0])
    ∧ answerOf (c 1) gap = some (.refusedState, [0x06, 3])
    ∧ answerOf (c 1) { formed with stop := true } = some (.refusedState, [])
    ∧ answerOf (c 1) (formed.setLine 3 { formed.line 3 with function := .pitGate, debounced := some .high })
      = some (.refusedState, [0x05, 3])
    ∧ answerOf (c 1) (formed.setPoint 2 { formed.point 2 with inhibit := true }) = some (.refusedState, [0x01, 2])
    ∧ answerOf (c 1) (formed.setConstraint 0 (some { side with state := .breach })) = some (.refusedState, [0x03, 0])
    ∧ answerOf (c 1) (formed.setSkew 0 true) = some (.refusedState, [0x02, 0])
    ∧ answerOf (c 1) formed = some (.done, []) := by decide +kernel

/-- A run that ends with its next stage, one that stops at a gap, and one that goes on. -/
theorem test_hyps_StagesStartAndComplete :
    (staging.group 0).run = some ⟨400, 100, 2, 4, 0, 0⟩
    ∧ (let r : Run := ⟨400, 100, 2, 4, 3, 300⟩; r.done + 1 = r.count)
    ∧ (let r : Run := ⟨400, 100, 2, 4, 1, 100⟩; r.done + 1 ≠ r.count ∧ r.gap ≠ 0 ∧ (r.done + 1) % r.gap = 0)
    ∧ (let r : Run := ⟨400, 100, 2, 4, 0, 0⟩; r.done + 1 ≠ r.count ∧ (r.done + 1) % r.gap ≠ 0) := by decide +kernel

/-- Progress of 95 is within the arrival band of a target of 100; 94 is not. What the group engine does in each state of
the group: none, a stage still open and one all of whose members have arrived, held from a stage and from a gap, a gap. -/
theorem test_hyps_ArrivalAndFollowHolding :
    ((95 : Int) ≤ ((leaning 1095 .live).point 0).progress 400)
    ∧ ¬ ((95 : Int) ≤ ((leaning 1094 .live).point 0).progress 400)
    ∧ (let s := leaning 1031 .live
       (∀ p ∈ s.members 0, (s.point p).arrived = false → (0 : Int) ≤ (s.point p).progress 400)
        ∧ ∃ p ∈ s.members 0, (s.point p).arrived = false ∧ (s.point p).progress 400 = 0)
    ∧ ((train.point 0).group = none ∧ (staging.point 0).group = some 0 ∧ (staging.group 0).state = .staging)
    ∧ (¬ ∀ q ∈ staging.members 0, (((staging.judgeArrival 0 0).evalFollow 0).point q).arrived = true)
    ∧ (let s := staging.mapPoints fun _ x => { x with arrived := true }
       ∀ q ∈ s.members 0, (((s.judgeArrival 0 0).evalFollow 0).point q).arrived = true)
    ∧ ((held.group 0).state = .holding ∧ (held.group 0).heldFrom = some .staging
      ∧ ((inGroup .holding (some .gap) 1).group 0).heldFrom = some .gap ∧ (gap.group 0).state = .gap)
    ∧ ((train.group 0).run = none ∧ spare ∉ staging.members 0
      ∧ 0 ∈ ((staging.mapPoints fun _ x => { x with arrived := true }).members 0)) := by
  refine ⟨?_, ?_, ?_, ?_, ?_, ?_, ?_, ?_⟩
  · decide +kernel
  · decide +kernel
  · decide +kernel
  · decide +kernel
  · decide +kernel
  · decide +kernel
  · decide +kernel
  · decide +kernel

/-- A follow-held member that arrives keeps the flag where its group is held, and loses it where the stage goes on, and at
the RESUME (R121 to R123, R132; log 31). -/
theorem test_held_arrival :
    let arriving (s : State) := s.setPoint 0 { s.point 0 with height := some 1095, followHeld := true }
    (((arriving held).groupTakes 0).point 0).arrived = true ∧ (((arriving held).groupTakes 0).point 0).followHeld = true
    ∧ (((arriving staging).groupTakes 0).point 0).arrived = true
    ∧ (((arriving staging).groupTakes 0).point 0).followHeld = false
    ∧ ((((arriving held).groupTakes 0).resumeFrom 0).point 0).followHeld = false
    ∧ ((((arriving held).groupTakes 0).resumeFrom 0).group 0).state = .staging := by decide +kernel

/-- Section 11.5's excesses with a follow window of 30: 34, 33 and 31 hold, 30 leaves, 16 leaves, 15 releases. -/
theorem test_follow_bounds :
    followAfter 30 false 31 = true ∧ followAfter 30 false 30 = false ∧ followAfter 30 true 16 = true
    ∧ followAfter 30 true 15 = false ∧ followAfter 30 true 24 = true := by decide +kernel

theorem test_hyps_GapRequests :
    (gap.Working ∧ gap.plan.state ≠ .compiling ∧ (gap.group 0).state = .gap ∧ gap.stop = false
      ∧ gap.NoneAsserted .pitGate)
    ∧ ((staging.group 0).state ≠ .gap ∧ ({ gap with stop := true } : State).stop = true ∧ 4 ≤ 4)
    ∧ (let r : Run := ⟨400, 100, 2, 4, 0, 0⟩
       (gap.group 0).run = some r ∧ (18000 : Int).natAbs ≤ 25000 ∧ 10 ≤ gap.limits.maxStep
        ∧ (18000 : Int).sign = r.travel.sign ∧ r.completed ≤ (18000 : Int).natAbs
        ∧ ∀ p ∈ gap.members 0, ∀ b ∈ (gap.point p).base,
            (gap.point p).targetOk gap.limits.liftCeiling ((b : Int) + 18000) = true) := by decide +kernel

/-- The refusals of AMEND-TRAVEL in R126's order: the operands, the sign, a target, a group that moves, one that is
ARRIVED; and CONTINUE on a group that moves (R125). -/
theorem test_gap_request_refusals :
    answerOf (.amendTravel (.takes ⟨0, 25001, none⟩)) gap = some (.refusedRange, [])
    ∧ answerOf (.amendTravel (.takes ⟨0, -400, none⟩)) gap = some (.refusedRange, [])
    ∧ answerOf (.amendTravel (.takes ⟨0, 18001, none⟩)) gap = some (.refusedRange, [0x01, 0])
    ∧ answerOf (.amendTravel (.takes ⟨0, 500, none⟩)) staging = some (.busy, [])
    ∧ answerOf (.amendTravel (.takes ⟨0, 500, none⟩)) (inGroup .arrived none 0) = some (.refusedState, [])
    ∧ answerOf (.continue_ (.takes 0)) staging = some (.refusedState, []) := by decide +kernel

theorem test_hyps_HoldClaims :
    (train.Working ∧ 4 ≤ 4)
    ∧ (drafted.beginCompile.Working ∧ drafted.beginCompile.plan.state = .compiling)
    ∧ (∀ st ∈ [GroupState.free, .formed, .arrived, .staging, .gap],
        let s := inGroup st none 0
        s.Working ∧ s.plan.state ≠ .compiling ∧ (s.group 0).state = st)
    ∧ (held.Working ∧ held.Settled ∧ held.plan.state ≠ .compiling ∧ (held.group 0).state = .holding
      ∧ (held.group 0).hasCause .host = true) := by
  refine ⟨?_, ?_, ?_, ?_⟩
  · decide +kernel
  · decide +kernel
  · decide +kernel
  · decide +kernel

/-- HOST is removable; STOP is not while the latch is set; a held group whose members have arrived, and one that has
not. -/
theorem test_hyps_ResumeResult :
    (held.Working ∧ held.plan.state ≠ .compiling ∧ (held.group 0).state = .holding
      ∧ ∀ c ∈ allCauses, (held.group 0).hasCause c = true → held.removable 0 c = true)
    ∧ (let s : State := { inGroup .holding (some .staging) 4 with stop := true }
       s.Working ∧ s.plan.state ≠ .compiling ∧ (s.group 0).state = .holding
        ∧ (s.group 0).hasCause .stop = true ∧ s.removable 0 .stop = false)
    ∧ ((inGroup .holding (some .gap) 1).group 0).heldFrom = some .gap
    ∧ ((held.group 0).heldFrom = some .staging ∧ ∃ p ∈ held.members 0, (held.point p).arrived = false)
    ∧ (let s := held.mapPoints fun _ x => { x with arrived := true }
       (s.group 0).heldFrom = some .staging ∧ ∀ p ∈ s.members 0, (s.point p).arrived = true)
    ∧ (4 ≤ 4 ∧ (staging.group 0).state ≠ .holding) := by
  refine ⟨?_, ?_, ?_, ?_, ?_, ?_⟩
  · decide +kernel
  · decide +kernel
  · decide +kernel
  · decide +kernel
  · decide +kernel
  · decide +kernel

theorem test_hyps_TimersExpire :
    (staging.Working ∧ (staging.group 0).state = .staging ∧ (staging.group 0).timer.isSome)
    ∧ (jogging.Working ∧ jogging.jog.active = some ⟨0, 50, 1000, 30000000⟩) := by decide +kernel

/-- A column of the train that no record names. -/
def third : PointId := ⟨2, by decide +kernel⟩

/-- A distance at each end of its range. -/
theorem test_hyps_JogResult :
    train.Working ∧ train.plan.state ≠ .compiling ∧ train.jog.active = none ∧ (100 : Int).natAbs ≤ train.limits.maxStep
    ∧ (train.point third).life = .planned ∧ (train.point third).health = .live ∧ (train.point third).height = some 1000
    ∧ (∀ d ∈ [(1 : Int), 100], (train.point third).targetOk train.limits.liftCeiling ((1000 : Nat) + d) = true)
    ∧ (train.point third).group = none ∧ (train.point third).inhibit = false ∧ (train.point third).conditions = 0
    ∧ train.stop = false ∧ train.NoneAsserted .pitGate
    ∧ ∀ c ∈ (train.point 0).index, ∀ x ∈ train.constraint c,
        x.state ≠ .warn ∧ x.state ≠ .breach ∧ x.state ≠ .blind := by decide +kernel

/-- The refusals of JOG in the order of R145 and R146: the operands, the target, a jog under way, the point's life, its
group, its inhibit, a condition, the latch, a constraint. -/
theorem test_jog_refusals :
    let c (d : Int) : Instr := .jog (.takes ⟨0, d⟩)
    answerOf (c 101) train = some (.refusedRange, [])
    ∧ answerOf (c (-1)) train = some (.refusedRange, [0x01, 0])
    ∧ answerOf (c 1) jogging = some (.busy, [0x01, 0])
    ∧ answerOf (c 1) drafted = some (.refusedState, [])
    ∧ answerOf (c 1) staging = some (.refusedState, [0x04, 0])
    ∧ answerOf (c 1) (train.setPoint 0 { train.point 0 with inhibit := true }) = some (.refusedState, [])
    ∧ answerOf (c 1) (train.setPoint 0 { train.point 0 with conditions := 12 }) = some (.refusedState, [0x09, 4])
    ∧ answerOf (c 1) { train with stop := true } = some (.refusedState, [])
    ∧ answerOf (c 1) (train.setConstraint 0 (some { side with state := .warn })) = some (.refusedState, [0x03, 0])
    ∧ answerOf (c 1) train = some (.done, []) := by decide +kernel

/-- No jog, a jog, a compilation; a report of 45 on a jog of 50, which has arrived, and one of 44, which has not. -/
theorem test_hyps_JogCancelEndsTheJog :
    (drafted.beginCompile.Working ∧ drafted.beginCompile.plan.state = .compiling)
    ∧ (train.Working ∧ train.plan.state ≠ .compiling ∧ train.jog.active = none)
    ∧ (jogging.Working ∧ jogging.plan.state ≠ .compiling ∧ jogging.jog.active = some ⟨0, 50, 1000, 30000000⟩
      ∧ (jogging.point 0).group = none)
    ∧ ((50 : Int) - jogging.limits.arrivalBand ≤ ((1045 : Int) - 1000) * (50 : Int).sign
      ∧ ¬ ((50 : Int) - jogging.limits.arrivalBand ≤ ((1044 : Int) - 1000) * (50 : Int).sign)) := by decide +kernel

theorem test_hyps_StopSetsTheLatch :
    staging.Working ∧ (staging.group 0).state = .staging ∧ (gap.group 0).state = .gap ∧ (held.group 0).state = .holding
    ∧ (staging.group 1).state = .free ∧ staging.jog.active = none
    ∧ jogging.jog.active = some ⟨0, 50, 1000, 30000000⟩ := by decide +kernel

/-- STOP on a moving group, on one held already, and on a jog (R129, R149, R155). -/
theorem test_stop_holds :
    (let s := gap.setLatch
     (s.group 0).heldFrom = some .gap ∧ (s.group 0).causes = 4 ∧ s.attention.isSet (.held 0) = true
      ∧ (s.engine 0).stopPending = true ∧ (s.engine 1).stopPending = false)
    ∧ (held.setLatch.group 0).causes = 5
    ∧ (jogging.setLatch.jog = ⟨none, .stop, some 0⟩ ∧ jogging.setLatch.attention.isSet .jog = true) := by decide +kernel

/-- The line that is SHED_STOP at reset. -/
def stopLine : LineId := ⟨8, by decide +kernel⟩

/-- That line at its active level. -/
def tripped : State := State.reset.setLine stopLine { State.reset.line stopLine with debounced := some .low }

theorem test_hyps_ClearStopResult :
    (State.reset.Working ∧ State.reset.NoneAsserted .shedStop)
    ∧ (tripped.Working ∧ (tripped.line 8).function = .shedStop ∧ (tripped.line 8).asserted = true
      ∧ ∀ m : LineId, m.val < 8 → ¬ ((tripped.line m).function = .shedStop ∧ (tripped.line m).asserted = true)) := by
  decide +kernel

/-- The lock on line 8 in service; the values held; a change to an output, back to an input, and to a line found
asserted; an input line made SHED_STOP at its active level, and one not at it. -/
theorem test_hyps_LineRequests :
    (LineFunction.allowedOn .generalIn 8 = true ∧ LineFunction.takesParameter .generalIn .absent = true
      ∧ staging.Working ∧ staging.plan.state = .inService ∧ (staging.line 8).function = .shedStop)
    ∧ (train.Working ∧ (train.line 0).function = .generalIn ∧ (train.line 0).parameter = .absent
      ∧ (train.line 0).polarity = .activeHigh)
    ∧ (LineFunction.allowedOn .pitGate 0 = true ∧ LineFunction.takesParameter .pitGate .absent = true
      ∧ ((train.line 0).rewrite (train.pins.at 0) .pitGate .absent .activeLow).asserted = true)
    ∧ (LineFunction.allowedOn .generalOut 7 = true
      ∧ ((train.line 7).rewrite .low .generalOut .absent .activeHigh).function = .generalOut
      ∧ LineFunction.isInput .generalOut = false)
    ∧ (train.line 0).function ≠ .generalOut
    ∧ (LineFunction.allowedOn .shedStop 11 = true ∧ LineFunction.takesParameter .shedStop .absent = true
      ∧ (train.line 11).function.isInput = true ∧ train.pins.at 11 = Polarity.active .activeLow
      ∧ train.pins.at 11 ≠ Polarity.active .activeHigh)
    ∧ (¬ (12 < 12) ∧ LineFunction.allowedOn .shedStop 7 = false ∧ 12 ≤ 12) := by decide +kernel

/-- A GENERAL_IN line at low made SHED_STOP active low while its debounced level is high: the latch is set at once, and
the timer is gone (R169). -/
theorem test_set_line_finds_the_stop :
    let x : Line := { train.line 11 with debounced := some .high, timer := some 7 }
    (x.rewrite .low .shedStop .absent .activeLow).asserted = true
    ∧ (x.rewrite .low .shedStop .absent .activeLow).timer = none
    ∧ ((train.setLine 11 x).rewriteLine 11 .shedStop .absent .activeLow).stop = true := by decide +kernel

/-- An output line takes no event; a level that comes back; a level that goes; line 8 reaching its active level. -/
theorem test_hyps_RawLevelsAndDebounce :
    (let s := train.setLine 0 { train.line 0 with function := .generalOut }
     s.Working ∧ s.pins.at 0 ≠ .high ∧ (s.line 0).function.isInput = false)
    ∧ (let s := { train with pins := train.pins.put 0 .high }
       s.pins.at 0 ≠ .low ∧ (s.line 0).function.isInput = true ∧ (s.line 0).debounced = some .low)
    ∧ (train.pins.at 0 ≠ .high ∧ (train.line 0).debounced ≠ some .high ∧ (train.line 0).function = .generalIn)
    ∧ (train.pins.at 8 ≠ .low ∧ (train.line 8).function = .shedStop ∧ Level.low = Polarity.active (train.line 8).polarity
      ∧ (train.line 8).debounced ≠ some .low)
    ∧ (let s := train.setLine 0 { train.line 0 with timer := some 0 }
       s.Working ∧ (s.line 0).function.isInput = true ∧ (s.line 0).timer.isSome) := by
  refine ⟨?_, ?_, ?_, ?_, ?_⟩
  · decide +kernel
  · decide +kernel
  · decide +kernel
  · decide +kernel
  · decide +kernel

/-- The first line. -/
def firstLine : LineId := ⟨0, by decide +kernel⟩

/-- A state with line 0 given a function and parameter, active high. -/
def wired (s : State) (f : LineFunction) (par : LineParameter) : State :=
  s.setLine firstLine { s.line firstLine with function := f, parameter := par }

/-- A PIT_GATE line, a HOLD_BUTTON of one group and of ALL, a CONTINUE_BUTTON of a group that may go on, and of one that
may not: it moves, the latch is set, a gate is open (R162 to R165). -/
theorem test_hyps_RawLevelsAndDebounce_assertions :
    ((wired staging .pitGate .absent).line 0).function = .pitGate
    ∧ ((wired staging .holdButton (.group 0)).line 0).parameter = .group 0
    ∧ ((wired staging .holdButton .all).line 0).parameter = .all
    ∧ (let s := wired gap .continueButton (.group 0)
       (s.line 0).function = .continueButton ∧ (s.line 0).parameter = .group 0 ∧ (s.group 0).state = .gap
        ∧ s.stop = false ∧ s.NoneAsserted .pitGate)
    ∧ (∀ s ∈ [wired staging .continueButton (.group 0), { wired gap .continueButton (.group 0) with stop := true },
          (wired gap .continueButton (.group 0)).setLine 1
            { gap.line 1 with function := .pitGate, debounced := some .high }],
        (s.line 0).function = .continueButton ∧ (s.line 0).parameter = .group 0
        ∧ ((s.group 0).state ≠ .gap ∨ s.stop = true ∨ (s.line 1).asserted = true)
        ∧ s.takeAssertion 0 = s) := by decide +kernel

/-- What those assertions do. -/
theorem test_assertions :
    (((wired staging .pitGate .absent).takeAssertion 0).group 0).causes = 8
    ∧ (((wired staging .holdButton .all).takeAssertion 0).group 0).causes = 2
    ∧ (((wired staging .holdButton (.group 1)).takeAssertion 0).group 0).causes = 0
    ∧ (((wired gap .continueButton (.group 0)).takeAssertion 0).group 0).state = .staging := by decide +kernel

theorem test_hyps_SlotsSend :
    (let e : Engine := { train.engine 0 with cycle := some 4 }
     e.stopPending = false ∧ e.queue = [] ∧ e.nextPoll = none ∧ e.cycle.isSome ∧ e.roster = ⟨1, 0, 0⟩ :: e.roster.tail
      ∧ e.choose = .poll ⟨1, 0, 0⟩)
    ∧ ((train.engine 0).nextPoll = some ⟨1, 0, 0⟩ ∧ (train.engine 0).choose = .poll ⟨1, 0, 0⟩
      ∧ (train.engine 0).link = .running ∧ (train.engine 0).exchange = none ∧ train.Working
      ∧ (train.engine 0).roster.Pairwise fun a b => a.node < b.node)
    ∧ (let s := (probed 0 false).setEngine 0
        { (probed 0 false).engine 0 with exchange := some .allStop, cycle := some 4 }
       s.Working ∧ (s.engine 0).link = .running ∧ (s.engine 0).exchange = some .allStop
        ∧ (s.engine 0).nextPoll = none ∧ (s.engine 0).choose = .probe 9 ∧ (s.point 9).address = some ⟨0, 9⟩)
    ∧ (let s := (staging.setLatch)
       s.Working ∧ (s.engine 0).link ≠ .resetting ∧ (s.engine 0).exchange = none ∧ (s.engine 0).stopPending = true)
    ∧ (Engine.powerOn.stopPending = false ∧ Engine.powerOn.queue = [] ∧ Engine.powerOn.roster = []) := by
  refine ⟨?_, ?_, ?_, ?_, ?_⟩
  · decide +kernel
  · decide +kernel
  · decide +kernel
  · decide +kernel
  · decide +kernel

/-- The slots of a cycle: above the position, the lowest where it is absent (R77). -/
theorem test_next_poll :
    ({ train.engine 0 with cycle := some 2 } : Engine).nextPoll = some ⟨3, 2, 0⟩
    ∧ ({ train.engine 0 with cycle := none } : Engine).nextPoll = some ⟨1, 0, 0⟩
    ∧ ({ train.engine 0 with cycle := some 4 } : Engine).nextPoll = none := by decide +kernel

/-- The greatest height and load that a REPLY may give, in a POLL's slot, to be stored or to be discarded, and the least
that it may not; a LOST point at its first and at its second good answer. -/
theorem test_hyps_ReplyStoresTheReport :
    (let f : ReplyFields := ⟨1, 30000, 6000, 0xFF⟩
     train.Working ∧ f.node = (1 : NodeAddr).val ∧ f.height ≤ 30000 ∧ f.load ≤ 6000
      ∧ ((onWire train (polled false)).engine 0).exchange = some (.poll 0 1 .none none false false)
      ∧ ((onWire train (polled true)).engine 0).exchange = some (.poll 0 1 .none none false true))
    ∧ (2 ≠ (1 : NodeAddr).val ∧ 30000 < 30001 ∧ 6000 < 6001)
    ∧ (train.point 0).health ≠ .lost
    ∧ (((leaning 1000 .lost).point 0).health = .lost ∧ ((leaning 1000 .lost).engine 0).goodRunOf 0 = 0)
    ∧ (((leaning 1000 .lost).setGoodRun 0 0 1).engine 0).goodRunOf 0 ≠ 0 := by
  decide +kernel

/-- A REPLY of another node, and an ANNOUNCE, count as a missed reply in a poll slot (R76; log 21). -/
theorem test_bad_answers :
    let s := onWire train (polled false)
    ((s.takeReply 0 ⟨2, 1000, 400, 0⟩).point 0).missed = 1 ∧ ((s.takeReply 0 ⟨2, 1000, 400, 0⟩).engine 0).exchange = none
    ∧ ((s.takeAnnounce 0 ⟨1, 100, 500, 0, 1000⟩).point 0).missed = 1
    ∧ ((s.takeReply 0 ⟨1, 1000, 400, 0⟩).point 0).load = some 400 := by decide +kernel

/-- A first and a third missed reply of a LIVE point, and one of a LOST point. -/
theorem test_hyps_MissedRepliesLoseThePoint :
    (∀ n ∈ [0, 1, 2],
      let s := (onWire staging (polled false)).setPoint 0 { staging.point 0 with missed := n }
      s.Working ∧ (s.engine 0).exchange = some (.poll 0 1 .none none false false) ∧ (s.point 0).health = .live
      ∧ (s.point 0).missed = n ∧ (s.point 0).group = some 0 ∧ (s.group 0).state = .staging)
    ∧ (let s := onWire (leaning 1000 .lost) (polled false)
       s.Working ∧ (s.engine 0).exchange = some (.poll 0 1 .none none false false) ∧ (s.point 0).health = .lost)
    ∧ ((onWire staging (polled true)).engine 0).exchange = some (.poll 0 1 .none none false true)
    ∧ jogging.jog.active.map (·.point) = some 0
    ∧ (staging.plan.state = .inService ∧ train.plan.state = .compiled ∧ staging.constraint 0 = some side
      ∧ 0 ∈ (staging.point 0).index ∧ 0 ∈ side.terms.points ∧ staging.constraintValue side.terms = some 0
      ∧ side.state ≠ .blind ∧ (staging.point 1).group = some 0)
    ∧ ((drafted.plan.state ≠ .compiled ∧ drafted.plan.state ≠ .inService) ∧ 1 ∉ (staging.point 0).index) := by
  refine ⟨?_, ?_, ?_, ?_, ?_, ?_⟩
  · decide +kernel
  · decide +kernel
  · decide +kernel
  · decide +kernel
  · decide +kernel
  · decide +kernel

/-- The loss of a moving member takes its constraint to BLIND and holds the group with LOST and BLIND (R81, R97, R136). -/
theorem test_loss_blinds :
    let s := staging.lose 0 0
    s.constraint 0 = some { side with state := .blind, last := some 0 } ∧ s.attention.isSet .breach = true
    ∧ (s.group 0).state = .holding ∧ (s.group 0).hasCause .lost = true ∧ (s.group 0).hasCause .blind = true := by
  decide +kernel

/-- The least ratings that bind, and the greatest that do not; the second and the third attempt unanswered. -/
theorem test_hyps_ProbesEnd :
    (let f : AnnounceFields := ⟨9, 100, 500, 15, 30000⟩
     (probed 1 false).Working ∧ f.node = (9 : NodeAddr).val ∧ f.height ≤ 30000 ∧ 100 ≤ f.capacity ∧ 500 ≤ f.stroke
      ∧ ((probed 1 false).engine 0).exchange = some (.probe 9 9 false)
      ∧ ((probed 1 true).engine 0).exchange = some (.probe 9 9 true) ∧ ((probed 1 false).engine 0).queue.head? = some 9)
    ∧ (99 < 100 ∧ 499 < 500)
    ∧ (((probed 2 false).engine 0).attempts < 3 ∧ 3 ≤ ((probed 3 false).engine 0).attempts) := by decide +kernel

/-- A bind and a third unanswered attempt each leave the queue empty and no attempt counted (R26, R27, R85, R86). -/
theorem test_probes_end :
    (let s := (probed 3 false).takeAnnounce 0 ⟨9, 100, 500, 15, 30000⟩
     (s.point 9).life = .bound ∧ (s.engine 0).queue = [] ∧ (s.engine 0).attempts = 0
      ∧ (s.engine 0).roster.map (·.node) = [1, 2, 3, 4, 9])
    ∧ (let s := (probed 3 false).probeUnanswered 0
       (s.point 9).bindOutcome = .noAnswer ∧ (s.engine 0).queue = [] ∧ (s.engine 0).attempts = 0) := by decide +kernel

/-- The second link. -/
def secondLink : LinkId := ⟨1, by decide +kernel⟩

/-- A link with PLANNED points, and one with a DRAFT point alone; a slot in flight, and none; a plan in service, a group
formed on a link with PLANNED points, a link that is RESETTING. -/
theorem test_hyps_LinkResetResult :
    (train.Working ∧ train.PlanOpen ∧ train.AllFree ∧ (train.engine 0).link ≠ .resetting ∧ (train.engine 0).exchange = none
      ∧ (∃ p, (train.point p).onLink 0 = true ∧ (train.point p).life = .planned) ∧ train.plan.state = .compiled)
    ∧ ((train.engine secondLink).link ≠ .resetting ∧ ∀ p, (train.point p).onLink secondLink = true → (train.point p).life ≠ .planned)
    ∧ (((onWire train (polled false)).engine 0).exchange ≠ none ∧ 4 ≤ 4)
    ∧ (staging.plan.state = .inService ∧ ((train.resetLink 0).engine 0).link = .resetting)
    ∧ (let s := train.setGroup 0 { Group.free with state := .formed }
       s.PlanOpen ∧ (s.group 0).state ≠ .free) := by decide +kernel

/-- A body that loses its corners, on link 0, and one that keeps them, on the second link. -/
theorem test_hyps_LinkResetResult_skew :
    train.SeatsMatch ∧ train.body 0 = some car
    ∧ (∃ p ∈ car.corners, (train.point p).onLink 0 = true ∧ (train.point p).life = .planned)
    ∧ (∀ p ∈ car.corners, (train.point p).onLink secondLink = false) ∧ train.body lastBody = none :=
  ⟨test_train_seats_match, rfl, by decide +kernel, by decide +kernel, rfl⟩

/-- A skewed body's entry becomes absent at the LINK-RESET that unbinds its corners, and no flag is set (R90, R107). -/
theorem test_link_reset_unskews :
    let s := (train.setSkew 0 true).resetLink 0
    s.skew.at 0 = false ∧ s.attention = train.attention := by decide +kernel

/-- LINK-RESET of one link of two that carry a COMPILED plan: the plan falls, and the other link's points are BOUND with
empty indexes (R53, R90). -/
theorem test_link_reset_falls :
    let s := coupled.resetLink secondLink
    s.plan.state = .drafted ∧ (s.point 0).life = .bound ∧ (s.point 0).index = [] ∧ (s.point 4).life = .draft
    ∧ s.constraint 0 = some { side with state := .idle, last := none } := by decide +kernel

theorem test_hyps_BreaksStartAndEnd :
    (let s := (onWire drafted (polled false)).resetLink 0
     s.Working ∧ (s.engine 0).link = .resetting ∧ (s.engine 0).breakLeft = none)
    ∧ (let s := drafted.resetLink 0
       s.Working ∧ (s.engine 0).link = .resetting ∧ (s.engine 0).breakLeft = some 1000
        ∧ ∃ p, (s.point p).onLink 0 = true)
    ∧ (let s := drafted.resetLink 3
       s.Working ∧ (s.engine 3).link = .resetting ∧ (s.engine 3).breakLeft = some 1000
        ∧ ∀ p, (s.point p).onLink 3 = false) := by
  refine ⟨?_, ?_, ?_⟩
  · decide +kernel
  · decide +kernel
  · decide +kernel

theorem test_hyps_ClearAttentionResult : staging.Working ∧ staging.Settled := by decide +kernel

theorem test_hyps_SetEnablesResult :
    staging.Working ∧ staging.Settled ∧ (0 : BitVec 32).setWidth 26 = staging.attention.enables := by decide +kernel

theorem test_hyps_SetLimitsResult :
    train.Working ∧ Limits.ok defaultLimits = true ∧ train.limitsLock = false ∧ train.plan.state ≠ .inService
    ∧ staging.limitsLock = false ∧ staging.plan.state = .inService
    ∧ ({ train with limitsLock := true } : State).limitsLock = true
    ∧ Limits.ok { defaultLimits with stageTimeout := 256 } = false
    ∧ (train.settle.Working ∧ train.settle.Settled ∧ train.settle.limitsLock = false
      ∧ train.settle.plan.state ≠ .inService ∧ train.settle.limits = defaultLimits) := by decide +kernel

theorem test_hyps_LockAndReadLimits : train.Working ∧ train.PlanOpen := by decide +kernel

theorem test_hyps_ConsoleFrames :
    ((Instr.start (.takes ⟨3, -25000, 500, 64⟩)).wf = true
      ∧ encodeRequest (.start (.takes ⟨3, -25000, 500, 64⟩))
        = some (0x41, [0x03, 0x9E, 0x58, 0x01, 0xF4, 0x40]))
    ∧ requestCode (.start (.takes ⟨3, -25000, 500, 64⟩)) = some 0x41
    ∧ decodeTransaction (requestFrame 0x52 []) = some (.stop (.takes ()))
    ∧ (List.length (α := Byte) [0, 0] ≤ 40 ∧ requestFrame 0x52 [] = [0x52, 0x00, crc8 [0x52, 0x00]]) := by
  decide +kernel

/-- A frame cut short, a length above 40, too few bytes, a CRC that does not match; a code outside the catalogue; operands
of a wrong length for each family, and FIND-POINT, FORM-GROUP and ADD-CONSTRAINT with none that fit. -/
theorem test_hyps_ConsoleFrames_refused :
    (40 < (41 : Byte).toNat ∧ [(0x00 : Byte)].length ≤ (1 : Byte).toNat
      ∧ [(0x01 : Byte)][(0 : Byte).toNat]? ≠ some (crc8 (0x52 :: 0 :: [])))
    ∧ ((0x9F : Byte) ∉ catalogue ∧ catalogue.length = 46 ∧ catalogue.Nodup)
    ∧ (∀ r ∈ fixedRequests, (List.replicate (r.2.1 + 1) (0 : Byte)).length ≠ r.2.1
        ∧ decodeRequest r.1 (List.replicate (r.2.1 + 1) 0) = r.2.2)
    ∧ decodeRequest 0x16 [0x02, 0x00] = .findPoint .illFormed
    ∧ decodeRequest 0x40 [0x00, 0x02, 0x00] = .formGroup .illFormed
    ∧ decodeRequest 0x30 [0x03, 0, 1, 2, 0xFF, 0, 1, 80] = .addConstraint .illFormed := by
  refine ⟨?_, ?_, ?_, ?_, ?_, ?_⟩
  · decide +kernel
  · decide +kernel
  · decide +kernel
  · decide +kernel
  · decide +kernel
  · decide +kernel

/-- The greatest fields of a REPLY; frames 30 microseconds apart and less; a frame in the window, and none. -/
theorem test_hyps_LinkFramesAndSlots :
    (255 < 256 ∧ 65535 < 65536 ∧ 15 < 16)
    ∧ ((replyFrame answer).dropLast.length ≠ 8 ∧ (announceFrame ⟨1, 100, 500, 0, 1000⟩).length = 10
      ∧ decodeReply ((replyFrame answer).dropLast ++ [0x00]) = none ∧ decodeAnnounce (replyFrame answer) = none)
    ∧ decodeReply (replyFrame ⟨255, 65535, 65535, 0xFF⟩) = some ⟨255, 65535, 65535, 0xFF⟩
    ∧ cutFrames [⟨0, 1, true⟩, ⟨40, 2, true⟩] = [⟨0, [1], 10, false⟩, ⟨40, [2], 50, false⟩]
    ∧ cutFrames [⟨0, 1, true⟩, ⟨39, 2, true⟩] = [⟨0, [1, 2], 49, false⟩]
    ∧ (asked.sent.1.length = 6 ∧ (60 ≤ 310 ∧ 310 ≤ 60 + 250) ∧ ¬ 311 ≤ 60 + 250)
    ∧ (let s := onWire train (polled false)
       (s.engine 0).exchange = some (polled false) ∧ judgeSlot 0 (polled false) [] = some (.missedReply 0)) := by
  decide +kernel

end Sys2Proof.Tests
end

section

/-! Body skew (R106): the test on the loads of the four corners. -/
namespace Sys2Proof.Machine

namespace State

/-- A corner without a load fails the first test of R106, so a skewed body has a load at each of its four corners. -/
theorem loads_of_skewed {s : State} {x : Body} (h : s.skewed x = true) :
    ∃ a b c d, (s.point x.ll).load = some a ∧ (s.point x.lr).load = some b ∧ (s.point x.tl).load = some c
      ∧ (s.point x.tr).load = some d := by
  unfold State.skewed at h
  split at h
  next a b c d ha hb hc hd => exact ⟨a, b, c, d, ha, hb, hc, hd⟩
  next => exact absurd h Bool.false_ne_true

/-- Where all four corners hold a load, R106 is the contact test of each and the share test of one. -/
theorem skewed_iff_of_loads {s : State} {x : Body} {a b c d : Nat} (ha : (s.point x.ll).load = some a)
    (hb : (s.point x.lr).load = some b) (hc : (s.point x.tl).load = some c) (hd : (s.point x.tr).load = some d) :
    s.skewed x = true ↔
      (∀ n ∈ [a, b, c, d], s.limits.contactLoad ≤ n)
        ∧ ∃ n ∈ [a, b, c, d], s.limits.shareLimit * (a + b + c + d) < n * 100 := by
  simp only [State.skewed, ha, hb, hc, hd, Bool.and_eq_true, List.all_eq_true, List.any_eq_true, decide_eq_true_eq]

end State

/-- Settles O32: a skewed body has its four loads, and with them the definition is R106's two tests. -/
theorem skewTest : Obligations.SkewTest := by
  intro s x
  constructor
  · intro h
    obtain ⟨a, b, c, d, ha, hb, hc, hd⟩ := State.loads_of_skewed h
    obtain ⟨contact, share⟩ := (State.skewed_iff_of_loads ha hb hc hd).mp h
    exact ⟨a, b, c, d, ha, hb, hc, hd, contact, share⟩
  · rintro ⟨a, b, c, d, ha, hb, hc, hd, contact, share⟩
    exact (State.skewed_iff_of_loads ha hb hc hd).mpr ⟨contact, share⟩

end Sys2Proof.Machine
end

section

/-! HOLD (R130) and the claim it makes (R129): a claim by the group's state, and the checks of HOLD in their order. -/
namespace Sys2Proof.Machine

/-- Setting a bit that is set changes nothing. -/
theorem insertBit_of_getLsbD {n : Nat} {m : BitVec n} {i : Nat} (h : m.getLsbD i = true) : insertBit m i = m := by
  apply BitVec.eq_of_getLsbD_eq
  intro j hj
  by_cases e : i = j
  · subst e
    rw [getLsbD_insertBit_self m hj, h]
  · exact getLsbD_insertBit_of_ne m e

/-- The states in which HOLD is taken (R130). -/
theorem GroupState.claimable_eq_true_iff (x : GroupState) :
    x.claimable = true ↔ x = .staging ∨ x = .gap ∨ x = .holding := by
  cases x <;> decide

/-- The states in which HOLD is refused (R130). -/
theorem GroupState.claimable_eq_false_iff (x : GroupState) :
    x.claimable = false ↔ x = .free ∨ x = .formed ∨ x = .arrived := by
  cases x <;> decide

namespace State

variable {s : State}

/-- The plan's test of a compilation in flight. -/
theorem compiling_eq_true_iff : s.compiling = true ↔ s.plan.state = .compiling := beq_iff_eq

theorem compiling_eq_false_iff : s.compiling = false ↔ s.plan.state ≠ .compiling := beq_eq_false_iff_ne

/-! ### A claim by the group's state (R129) -/

theorem claim_of_staging {g : GroupId} (h : (s.group g).state = .staging) (c : HoldCause) :
    s.claim g c = (s.setGroup g { s.group g with
      state := .holding, heldFrom := some .staging, causes := insertBit (s.group g).causes c.bit }).raiseFlag
      (.held g) := by
  simp only [State.claim, h]

theorem claim_of_gap {g : GroupId} (h : (s.group g).state = .gap) (c : HoldCause) :
    s.claim g c = (s.setGroup g { s.group g with
      state := .holding, heldFrom := some .gap, causes := insertBit (s.group g).causes c.bit }).raiseFlag
      (.held g) := by
  simp only [State.claim, h]

theorem claim_of_holding {g : GroupId} (h : (s.group g).state = .holding) (c : HoldCause) :
    s.claim g c = s.setGroup g { s.group g with causes := insertBit (s.group g).causes c.bit } := by
  simp only [State.claim, h]

/-- A claim has no effect on a group that records none. -/
theorem claim_of_not_claimable {g : GroupId} (h : (s.group g).state.claimable = false) (c : HoldCause) :
    s.claim g c = s := by
  rcases (GroupState.claimable_eq_false_iff _).1 h with h | h | h <;> simp only [State.claim, h]

/-- A claim of a cause that a HOLDING group already has changes nothing. -/
theorem claim_of_hasCause {g : GroupId} {c : HoldCause} (h : (s.group g).state = .holding)
    (hc : (s.group g).hasCause c = true) : s.claim g c = s := by
  rw [claim_of_holding h, insertBit_of_getLsbD hc]
  exact congrArg (fun x => { s with groups := x }) (Table.put_at_self s.groups g)

end State

/-! ### The checks of HOLD (R130) -/

variable {s : State}

/-- A group number above 3 names no group. -/
theorem holdGroup_of_out_of_range {n : Nat} (h : 4 ≤ n) : holdGroup n s = refuse s .refusedRange := by
  simp only [holdGroup, fin?_of_not_lt (Nat.not_lt.2 h)]

theorem holdGroup_of_compiling (g : GroupId) (h : s.plan.state = .compiling) :
    holdGroup g.val s = refuse s .busy := by
  simp only [holdGroup, fin?_val, State.compiling_eq_true_iff.2 h, if_true]

theorem holdGroup_of_not_claimable {g : GroupId} (hp : s.plan.state ≠ .compiling)
    (hg : (s.group g).state.claimable = false) : holdGroup g.val s = refuse s .refusedState := by
  simp [holdGroup, fin?_val, State.compiling_eq_false_iff.2 hp, hg]

theorem holdGroup_of_claimable {g : GroupId} (hp : s.plan.state ≠ .compiling)
    (hg : (s.group g).state.claimable = true) : holdGroup g.val s = done (s.claim g .host).settle := by
  simp [holdGroup, fin?_val, State.compiling_eq_false_iff.2 hp, hg]

/-- HOLD while the part works is answered as its checks give (R174, R177). -/
theorem exec_hold {n : Nat} {r : Answer × State} (hw : s.Working) (h : holdGroup n s = r) :
    exec (.hold (.takes n)) s = .next (s.answered r.2 0x44 r.1.status r.1.payload) := by
  subst h
  exact congrArg _ (request_takes s hw 0x44 n holdGroup)

/-- An accepted HOLD makes a HOST claim (R130). -/
theorem exec_hold_of_claimable {g : GroupId} (hw : s.Working) (hp : s.plan.state ≠ .compiling)
    (hg : (s.group g).state.claimable = true) :
    exec (.hold (.takes g.val)) s = .next (s.answered (s.claim g .host).settle 0x44 .done []) :=
  exec_hold hw (holdGroup_of_claimable hp hg)

/-- HOLD on a group already holding HOST changes nothing, since a settled state has nothing to settle (R130). -/
theorem exec_hold_of_hasCause_host {g : GroupId} (hw : s.Working) (hs : s.Settled) (hp : s.plan.state ≠ .compiling)
    (hg : (s.group g).state = .holding) (hc : (s.group g).hasCause .host = true) :
    exec (.hold (.takes g.val)) s = .next (s.answered s 0x44 .done []) := by
  have accepted := exec_hold_of_claimable hw hp ((GroupState.claimable_eq_true_iff _).2 (.inr (.inr hg)))
  rw [State.claim_of_hasCause hg hc, State.settle_of_settled hs] at accepted
  exact accepted

/-- Settles O40: HOLD's checks in their order, and the claim by the group's state. -/
theorem holdClaims : Obligations.HoldClaims := by
  refine ⟨?range, ?busy, ?refused, ?accepted, ?again, ?claim⟩
  case range => exact fun s n hw hn => exec_hold hw (holdGroup_of_out_of_range hn)
  case busy => exact fun s g hw hp => exec_hold hw (holdGroup_of_compiling g hp)
  case refused =>
    intro s g hw hp hg
    exact exec_hold hw (holdGroup_of_not_claimable hp ((GroupState.claimable_eq_false_iff _).2 hg))
  case accepted =>
    intro s g hw hp hg
    exact exec_hold_of_claimable hw hp ((GroupState.claimable_eq_true_iff _).2 hg)
  case again => exact fun s g hw hs hp hg hc => exec_hold_of_hasCause_host hw hs hp hg hc
  case claim =>
    intro s g c
    exact ⟨fun h => State.claim_of_staging h c, fun h => State.claim_of_gap h c, fun h => State.claim_of_holding h c,
      fun h => State.claim_of_not_claimable ((GroupState.claimable_eq_false_iff _).2 h) c⟩

end Sys2Proof.Machine
end

section

/-! The setting of the stop latch (R155): what it does to each record, read off its four parts in their order, which are
the claims, the end of the jog, the stop notices and the STOP flag. -/
namespace Sys2Proof.Machine

/-- A stop notice leaves an IDLE engine and sets stop pending on any other (R87). -/
theorem Engine.stopNotice_eq (e : Engine) :
    e.stopNotice = if e.link = .idle then e else { e with stopPending := true } := by
  unfold Engine.stopNotice
  cases e.link <;> rfl

namespace State

/-! ### What claims and the end of a jog leave -/

/-- A claim changes no enable. -/
theorem enables_claim (s : State) (g : GroupId) (c : HoldCause) :
    (s.claim g c).attention.enables = s.attention.enables := by
  unfold State.claim
  dsimp only
  split <;> rfl

/-- A claim on every group changes no enable. -/
theorem enables_claimAll (s : State) (c : HoldCause) : (s.claimAll c).attention.enables = s.attention.enables :=
  List.foldlRecOn (motive := fun t : State => t.attention.enables = s.attention.enables) (ids 4)
    (fun t g => t.claim g c) rfl fun t ht g _ => (enables_claim t g c).trans ht

/-- The end of a jog changes no enable. -/
theorem enables_endJog (s : State) (o : JogOutcome) : (s.endJog o).attention.enables = s.attention.enables := by
  unfold State.endJog
  split <;> rfl

/-- The end of a jog changes no engine. -/
theorem links_endJog (s : State) (o : JogOutcome) : (s.endJog o).links = s.links := by
  obtain ⟨x, j, a, e⟩ := s.endJog_eq o
  rw [e]

/-- A jog notice taken while the slot is IDLE has no effect (R149). -/
theorem endJog_of_idle {s : State} (h : s.jog.active = none) (o : JogOutcome) : s.endJog o = s := by
  simp only [State.endJog, h]

/-! ### The claims of STOP -/

/-- The latch set and STOP claimed on every group: the first part of the latch's effects. -/
def stopClaimed (s : State) : State := State.claimAll { s with stop := true } .stop

variable (s : State)

/-- The setting of the latch: the claims, the end of the jog, the notices to the engines, the STOP flag (R155). -/
theorem setLatch_eq_endJog :
    s.setLatch = State.raiseFlag { s.stopClaimed.endJog .stop with
      links := (s.stopClaimed.endJog .stop).links.mapAll fun _ e => e.stopNotice } .stop := rfl

/-- The claims of STOP write the latch, the groups and the attention unit alone. -/
theorem stopClaimed_eq : ∃ x a, s.stopClaimed = { s with stop := true, groups := x, attention := a } :=
  State.claimAll_eq { s with stop := true } .stop

@[simp] theorem stopClaimed_points : s.stopClaimed.points = s.points := by
  obtain ⟨x, a, e⟩ := s.stopClaimed_eq
  rw [e]

@[simp] theorem stopClaimed_links : s.stopClaimed.links = s.links := by
  obtain ⟨x, a, e⟩ := s.stopClaimed_eq
  rw [e]

@[simp] theorem stopClaimed_jog : s.stopClaimed.jog = s.jog := by
  obtain ⟨x, a, e⟩ := s.stopClaimed_eq
  rw [e]

@[simp] theorem stopClaimed_point (p : PointId) : s.stopClaimed.point p = s.point p :=
  congrArg (fun t : Table Point 48 => t.at p) s.stopClaimed_points

theorem stopClaimed_group (g : GroupId) : s.stopClaimed.group g = (s.claim g .stop).group g :=
  calc s.stopClaimed.group g
      = (State.claim { s with stop := true } g .stop).group g := group_claimAll _ .stop g
    _ = (s.claim g .stop).group g := group_claim_congr (s := { s with stop := true }) (t := s) rfl .stop

theorem isSet_stopClaimed_iff (f : Flag) :
    s.stopClaimed.attention.isSet f = true ↔ s.attention.isSet f = true
      ∨ ∃ g, f = .held g ∧ ((s.group g).state = .staging ∨ (s.group g).state = .gap) := by
  refine (isSet_foldl_claim_iff .stop f (ids 4) (List.nodup_finRange 4) { s with stop := true }).trans ?_
  simp only [mem_ids, true_and]
  rfl

/-! ### The setting of the latch, record by record -/

/-- The latch acts on each group as a claim of STOP on it alone (R129, R155). -/
theorem group_setLatch (g : GroupId) : s.setLatch.group g = (s.claim g .stop).group g :=
  calc s.setLatch.group g
      = (s.stopClaimed.endJog .stop).group g := rfl
    _ = s.stopClaimed.group g := congrArg (fun t : Table Group 4 => t.at g) (groups_endJog s.stopClaimed .stop)
    _ = (s.claim g .stop).group g := s.stopClaimed_group g

/-- An ACTIVE jog ends with STOP (R149, R155). -/
theorem jog_setLatch_of_active {j : ActiveJog} (h : s.jog.active = some j) :
    s.setLatch.jog = ⟨none, .stop, some j.point⟩ :=
  jog_endJog s.stopClaimed (by rw [stopClaimed_jog, h]) .stop

/-- An IDLE slot stays (R149). -/
theorem jog_setLatch_of_idle (h : s.jog.active = none) : s.setLatch.jog = s.jog := by
  have ended : s.stopClaimed.endJog .stop = s.stopClaimed := endJog_of_idle (by rw [stopClaimed_jog, h]) .stop
  rw [setLatch_eq_endJog, ended]
  exact s.stopClaimed_jog

/-- Each engine takes a stop notice (R155). -/
theorem engine_setLatch (l : LinkId) : s.setLatch.engine l = (s.engine l).stopNotice := by
  simp only [State.engine, setLatch_eq_endJog, raiseFlag_links, links_endJog, stopClaimed_links, Table.at_mapAll]

/-- The flags set are those set before, STOP, JOG where a jog was ACTIVE, and HELD of each group that was moving or at
a gap. -/
theorem isSet_setLatch_iff (f : Flag) :
    s.setLatch.attention.isSet f = true ↔
      s.attention.isSet f = true ∨ f = .stop ∨ (f = .jog ∧ s.jog.active.isSome)
        ∨ ∃ g, f = .held g ∧ ((s.group g).state = .staging ∨ (s.group g).state = .gap) := by
  have raised : s.setLatch.attention.isSet f = true ↔
      (s.stopClaimed.endJog .stop).attention.isSet f = true ∨ f = .stop := isSet_raiseFlag_iff _ .stop f
  rw [raised, isSet_endJog_iff, isSet_stopClaimed_iff, stopClaimed_jog]
  simp only [or_comm, or_left_comm]

/-- The setting of the latch changes no enable. -/
theorem enables_setLatch : s.setLatch.attention.enables = s.attention.enables :=
  calc s.setLatch.attention.enables
      = (s.stopClaimed.endJog .stop).attention.enables := rfl
    _ = s.stopClaimed.attention.enables := enables_endJog _ _
    _ = s.attention.enables := enables_claimAll _ _

/-- The point of an ACTIVE jog loses its target, and every other point stays (R149, R155). -/
theorem point_setLatch (p : PointId) :
    s.setLatch.point p =
      if ∃ j ∈ s.jog.active, j.point = p then { s.point p with target := none } else s.point p := by
  have ended : s.setLatch.point p = (s.stopClaimed.endJog .stop).point p := rfl
  rw [ended]
  cases h : s.jog.active with
  | none => rw [endJog_of_idle (by rw [stopClaimed_jog, h])]; simp
  | some j => rw [point_endJog s.stopClaimed (by rw [stopClaimed_jog, h])]; simp

/-- The setting of the latch writes the latch, the points, the groups, the engines, the jog slot and the attention unit
alone. -/
theorem setLatch_frame :
    s.setLatch = { s with
      stop := true, points := s.setLatch.points, groups := s.setLatch.groups, links := s.setLatch.links
      jog := s.setLatch.jog, attention := s.setLatch.attention } := by
  obtain ⟨x, l, g, j, a, e, -⟩ := s.setLatch_eq
  rw [e]

/-- The latch is set (R155). -/
theorem stop_setLatch : s.setLatch.stop = true := by rw [setLatch_frame]

end State

/-- STOP while the part works sets the latch, whatever the plan state and the latch (R156). -/
theorem exec_stop {s : State} (hw : s.Working) :
    exec (.stop (.takes ())) s = .next (s.answered s.setLatch.settle 0x52 .done []) :=
  congrArg _ (request_takes s hw 0x52 () stopRequest)

/-- Settles O45: STOP is answered with the latch set, and each record after it is as the latch's effects give. -/
theorem stopSetsTheLatch : Obligations.StopSetsTheLatch := by
  intro s hw
  refine ⟨exec_stop hw, s.stop_setLatch, ?groups, fun _ => s.jog_setLatch_of_active, s.jog_setLatch_of_idle,
    ?engines, s.isSet_setLatch_iff, s.enables_setLatch, ?permits, s.point_setLatch, s.setLatch_frame⟩
  case groups =>
    intro g
    rw [State.group_setLatch, State.group_claim_self]
    cases h : (s.group g).state <;> simp only [h]
  case engines => exact fun l => (s.engine_setLatch l).trans (Engine.stopNotice_eq _)
  case permits =>
    obtain ⟨permits, -, -⟩ := s.setLatch.settled_settle
    exact permits

end Sys2Proof.Machine
end

section

/-! CLEAR-STOP (R157): the search for an asserted SHED_STOP line decides it. -/
namespace Sys2Proof

/-- The first id that passes a test is the one that passes it where no lower id does. -/
theorem find?_ids_eq_some_iff {n : Nat} {test : Fin n → Bool} {i : Fin n} :
    (ids n).find? test = some i ↔ test i = true ∧ ∀ j, j < i → test j = false := by
  rw [ids, ← Fin.find?_eq_find?_finRange, Fin.find?_eq_some_iff]

namespace Machine

/-- The search for an asserted line of a function finds the lowest (R159). -/
theorem State.assertedLine_eq_some_iff (s : State) (f : LineFunction) (l : LineId) :
    s.assertedLine f = some l ↔ ((s.line l).function = f ∧ (s.line l).asserted = true)
      ∧ ∀ m : LineId, m.val < l.val → ¬ ((s.line m).function = f ∧ (s.line m).asserted = true) := by
  simp only [State.assertedLine, find?_ids_eq_some_iff, Bool.and_eq_true, Bool.and_eq_false_iff, beq_iff_eq,
    beq_eq_false_iff_ne, Fin.lt_def, not_and, Bool.not_eq_true, imp_iff_not_or, ne_eq]

/-- The latch is cleared where no SHED_STOP line is asserted (R157). -/
theorem clearStop_of_noneAsserted {s : State} (h : s.NoneAsserted .shedStop) :
    clearStop () s = done { s with stop := false }.settle := by
  simp only [clearStop, (s.assertedLine_eq_none_iff .shedStop).2 h]

/-- The lowest asserted SHED_STOP line is the one that CLEAR-STOP's refusal names (R157). -/
theorem clearStop_of_assertedLine {s : State} {l : LineId} (h : s.assertedLine .shedStop = some l) :
    clearStop () s = refuseFor s .refusedState (.line l) := by
  simp only [clearStop, h]

/-- CLEAR-STOP while the part works is answered as its check gives (R174, R177). -/
theorem exec_clearStop {s : State} (hw : s.Working) {r : Answer × State} (h : clearStop () s = r) :
    exec (.clearStop (.takes ())) s = .next (s.answered r.2 0x53 r.1.status r.1.payload) := by
  subst h
  exact congrArg _ (request_takes s hw 0x53 () clearStop)

/-- Settles O46: CLEAR-STOP by the lowest asserted SHED_STOP line, and where there is none. -/
theorem clearStopResult : Obligations.ClearStopResult := by
  constructor
  · exact fun s hw clear => exec_clearStop hw (clearStop_of_noneAsserted clear)
  · intro s l hw isShedStop isAsserted isLowest
    have found : s.assertedLine .shedStop = some l :=
      (s.assertedLine_eq_some_iff .shedStop l).2 ⟨⟨isShedStop, isAsserted⟩, isLowest⟩
    exact exec_clearStop hw (clearStop_of_assertedLine found)

end Machine

end Sys2Proof
end

section

/-! CLEAR-ATTENTION and SET-ENABLES (R193, R194): both write the attention unit alone, and of the derived fields only ATTN
reads it (R192), so from a settled state the settling drives ATTN and nothing else. -/
namespace Sys2Proof.Machine

namespace State

variable {s : State}

/-! ### A write of the attention unit -/

/-- No permit and no driven level reads the attention unit (R143, R167), so a settled state stays settled when the unit is
written with ATTN as its flags and enables give. -/
theorem settled_of_attention (h : s.Settled) {a : Attention} (ha : a.attn = a.calls) :
    Settled { s with attention := a } := by
  obtain ⟨permits, drives, -⟩ := h
  exact ⟨permits, drives, ha⟩

/-- Settling after a write of the attention unit drives ATTN and changes nothing else (R192). -/
theorem settle_attention_write (h : s.Settled) (a : Attention) :
    settle { s with attention := a } = { s with attention := { a with attn := a.calls } } :=
  calc settle { s with attention := a }
      = settle { s with attention := { a with attn := a.calls } } := rfl
    _ = { s with attention := { a with attn := a.calls } } := settle_of_settled (settled_of_attention h rfl)

/-! ### The clearing of flags (R193) -/

/-- The flags a mask names, made clear: the first part of CLEAR-ATTENTION. -/
def withoutFlags (s : State) (mask : BitVec 32) : State :=
  { s with attention := { s.attention with flags := s.attention.flags &&& ~~~ mask.setWidth 26 } }

/-- CLEAR-ATTENTION's two parts: the flags named are cleared, and then STOP is set again where it was named while the
latch is set. -/
theorem clearFlags_eq_withoutFlags (s : State) (mask : BitVec 32) :
    s.clearFlags mask =
      if s.stop && mask.getLsbD 0 then (s.withoutFlags mask).raiseFlag .stop else s.withoutFlags mask := rfl

/-- A flag is left where it was set and the mask does not name it; the mask is wider than the flags, and each flag's bit is
its own in both (R183). -/
theorem isSet_withoutFlags (s : State) (mask : BitVec 32) (f : Flag) :
    (s.withoutFlags mask).attention.isSet f = (s.attention.isSet f && !mask.getLsbD f.bit) := by
  simp [withoutFlags, Attention.isSet, f.bit_lt]

/-- After CLEAR-ATTENTION a flag is set where it was set and not named, and STOP also where it was named while the latch is
set (R193). -/
theorem isSet_clearFlags (s : State) (mask : BitVec 32) (f : Flag) :
    (s.clearFlags mask).attention.isSet f =
      ((s.attention.isSet f && !mask.getLsbD f.bit) || (decide (f = .stop) && s.stop && mask.getLsbD 0)) := by
  rw [clearFlags_eq_withoutFlags, ← isSet_withoutFlags, Bool.and_assoc]
  cases latched : s.stop && mask.getLsbD 0 with
  | false => simp
  | true =>
    rw [Bool.eq_iff_iff]
    simp [isSet_raiseFlag_iff]

/-- The clearing of flags writes the flags alone. -/
theorem clearFlags_eq (s : State) (mask : BitVec 32) :
    ∃ flags, s.clearFlags mask = { s with attention := { s.attention with flags := flags } } := by
  rw [clearFlags_eq_withoutFlags]
  split <;> exact ⟨_, rfl⟩

end State

/-! ### The two requests -/

variable {s : State}

/-- CLEAR-ATTENTION while the part works is answered DONE with the flags cleared (R193). -/
theorem exec_clearAttention (hw : s.Working) (mask : BitVec 32) :
    exec (.clearAttention (.takes mask)) s = .next (s.answered (s.clearFlags mask).settle 0x81 .done []) :=
  congrArg _ (request_takes s hw 0x81 mask clearAttention)

/-- SET-ENABLES while the part works is answered DONE with the enables written (R194). -/
theorem exec_setEnables (hw : s.Working) (mask : BitVec 32) :
    exec (.setEnables (.takes mask)) s =
      .next (s.answered (State.settle { s with attention := { s.attention with enables := mask.setWidth 26 } })
        0x82 .done []) :=
  congrArg _ (request_takes s hw 0x82 mask setEnables)

/-- Settles O55: the flags cleared are the only write, and the settling drives ATTN alone. -/
theorem clearAttentionResult : Obligations.ClearAttentionResult := by
  intro s mask hw hs
  obtain ⟨flags, cleared⟩ := s.clearFlags_eq mask
  have written := State.settle_attention_write hs { s.attention with flags := flags }
  refine ⟨_, exec_clearAttention hw mask, s.isSet_clearFlags mask, ?enables, rfl, ?frame⟩
  case enables => simp only [State.answered_attention, State.settle_attention, cleared]
  case frame => rw [cleared, written]; rfl

/-- Settles O56: the enables are the only write; writing the enables held leaves a settled state as it is. -/
theorem setEnablesResult : Obligations.SetEnablesResult := by
  intro s mask hw hs
  constructor
  · rw [exec_setEnables hw, State.settle_attention_write hs]
    rfl
  · intro held
    rw [exec_setEnables hw, held, State.settle_of_settled hs]

end Sys2Proof.Machine
end

section

/-! LOCK-LIMITS and READ-LIMITS (R198), and what a reset does to the lock (R181, R200). -/
namespace Sys2Proof.Machine

variable {s : State}

/-- LOCK-LIMITS while the part works is answered DONE with the lock set, whatever the plan state and the lock (R198). -/
theorem exec_lockLimits (hw : s.Working) :
    exec (.lockLimits (.takes ())) s = .next (s.answered { s with limitsLock := true } 0x91 .done []) :=
  congrArg _ (request_takes s hw 0x91 () lockLimits)

/-- READ-LIMITS while the part works is answered with its payload, and no record changes (R198). -/
theorem exec_readLimits (hw : s.Working) :
    exec (.readLimits (.takes ())) s = .next (s.answered s 0x92 .done (limitsPayload s)) :=
  congrArg _ (request_takes s hw 0x92 () readLimits)

/-- A two-valued field is sent as 1 where it holds and as 0 otherwise (R182). -/
theorem encBool_eq (b : Bool) : encBool b = if b = true then 1 else 0 := by
  cases b <;> rfl

/-- PART-RESET is accepted while the plan is neither IN_SERVICE nor COMPILING (R180). -/
theorem partReset_of_planOpen (h : s.PlanOpen) : partReset () s = done s.partReset.settle := by
  obtain ⟨notInService, notCompiling⟩ := h
  simp only [partReset, notInService, notCompiling, if_false]

/-- PART-RESET while the part works is answered as its checks give (R174, R180). -/
theorem exec_partReset (hw : s.Working) {r : Answer × State} (h : partReset () s = r) :
    exec (.partReset (.takes ())) s = .next (s.answered r.2 0x02 r.1.status r.1.payload) := by
  subst h
  exact congrArg _ (request_takes s hw 0x02 () Machine.partReset)

/-- The reset pin clears the lock (R200). -/
@[simp] theorem State.limitsLock_powerOn (s : State) : s.powerOn.limitsLock = false := rfl

/-- PART-RESET leaves the lock (R181). -/
@[simp] theorem State.limitsLock_partReset (s : State) : s.partReset.limitsLock = s.limitsLock := rfl

/-- Settles O58: the two requests on the site limits, and the lock through both resets. -/
theorem lockAndReadLimits : Obligations.LockAndReadLimits := by
  refine ⟨fun s hw => exec_lockLimits hw, ?read, fun s => ⟨s.powerOn, rfl, s.limitsLock_powerOn⟩, ?reset⟩
  case read =>
    intro s hw
    rw [exec_readLimits hw, ← encBool_eq]
    rfl
  case reset =>
    intro s hw isOpen
    exact ⟨_, exec_partReset hw (partReset_of_planOpen isOpen), s.limitsLock_partReset⟩

end Sys2Proof.Machine
end

section

/-! What a step can do to the records, said once: the changes that a settling follows and those that none follows, each
with the checks that let it happen. Every invariant is proved by the cases of `State.Change` and `State.Quiet`. -/
namespace Sys2Proof.Machine

namespace State

/-- The points that may stand under the corners of a body record: distinct, and each already a corner of `old` or
enrolled and in no body (R10, R12). -/
structure Enters (s : State) (old : List PointId) (x : Body) : Prop where
  distinct : x.corners.Nodup
  enterable : ∀ p ∈ x.corners, p ∈ old ∨ ((s.point p).life ≠ .vacant ∧ (s.point p).seat = none)

/-- No body but `b` stands at the position (R2). -/
def AloneAt (s : State) (b : BodyId) (pos : Position) : Prop := ∀ c y, s.body c = some y → y.position = pos → c = b

/-- No non-VACANT point but `p` holds the column address (R24). -/
def FreeFor (s : State) (p : PointId) (a : Address) : Prop :=
  ∀ q, (s.point q).life ≠ .vacant → (s.point q).address = some a → q = p

/-- A change of the records after which the derived fields are settled, with the checks that were passed. -/
inductive Change (s : State) : State → Prop
  | partReset : Change s s.partReset
  | enrol {p a} (vacant : (s.point p).life = .vacant) (free : s.FreeFor p a) : Change s (s.enrol p a)
  | rebind {p a} (draft : (s.point p).life = .draft) (idle : (s.point p).bindOutcome ≠ .pending)
      (address : (s.point p).address = some a) : Change s (s.rebind p a)
  | retire {p} (enrolled : (s.point p).life ≠ .vacant) (unseated : (s.point p).seat = none) : Change s (s.retire p)
  | recapture (p) : Change s (s.recapture p)
  | readdress {p a} (v) (unplanned : (s.point p).life ≠ .planned) (enrolled : (s.point p).life ≠ .vacant)
      (free : s.FreeFor p a) : Change s ((s.readdress p a).writeInhibit [p] v)
  | amend (set d v) : Change s ((s.writeDerating set d).writeInhibit set v)
  | define {b x} (open_ : s.PlanOpen) (free : s.AllFree) (empty : s.body b = none) (corners : s.Enters [] x)
      (alone : s.AloneAt b x.position) : Change s (s.define b x)
  | amendBody {b x y} (skew : Bool) (open_ : s.PlanOpen) (free : s.AllFree) (held : s.body b = some x)
      (corners : s.Enters x.corners y) (alone : s.AloneAt b y.position) :
      Change s (if skew then ((s.writeBody b (some y)).planAfterBodies).judgeSkew b
        else (s.writeBody b (some y)).planAfterBodies)
  | retireBody (b) (open_ : s.PlanOpen) (free : s.AllFree) : Change s (s.retireBody b)
  | addCustom (c t l w) (open_ : s.PlanOpen) (free : s.AllFree) : Change s (s.addCustom c t l w)
  | amendFields {c x} (l w) (held : s.constraint c = some x) :
      Change s (if (s.setConstraint c (some { x with limit := l, warn := w })).judging
        then (s.setConstraint c (some { x with limit := l, warn := w })).evaluate c
        else s.setConstraint c (some { x with limit := l, warn := w }))
  | retireConstraint (c) (open_ : s.PlanOpen) (free : s.AllFree) : Change s (s.setConstraint c none).draftIfCompiled
  | beginCompile (open_ : s.PlanOpen) (free : s.AllFree) : Change s s.beginCompile
  | compileSucceeds {j w t} (compiling : s.plan.state = .compiling) (built : s.build j w = .ok t) :
      Change s t.compileSucceeds
  | compileFails (f) (compiling : s.plan.state = .compiling) : Change s (s.compileFails f)
  | form {g} (bs) (free : (s.group g).state = .free) (judging : s.judging = true) : Change s (s.form g bs)
  | beginRun {g o} (ready : (s.group g).state = .formed ∨ (s.group g).state = .arrived)
      (stages : 0 < ceilDiv o.travel.natAbs o.step) : Change s (s.beginRun g o)
  | startStage {g} (gap : (s.group g).state = .gap) : Change s (s.startStage g)
  | amendRun {g} (o) (gap : (s.group g).state = .gap) : Change s (s.amendRun g o)
  | claim (g c) : Change s (s.claim g c)
  | resume {g} (holding : (s.group g).state = .holding) : Change s (s.resumeFrom g)
  | disband (g) : Change s (s.disband g)
  | expireStage {g} (staging : (s.group g).state = .staging) :
      Change s ((s.setGroup g { s.group g with timer := some 0 }).claim g .stall)
  | beginJog {p} (d) (planned : (s.point p).life = .planned) : Change s (s.beginJog p d)
  | endJog (o) : Change s (s.endJog o)
  | setLatch : Change s s.setLatch
  | clearLatch : Change s { s with stop := false }
  | rewriteLine (l f par pol) : Change s (s.rewriteLine l f par pol)
  | output (l v) : Change s (s.setLine l { s.line l with output := v })
  | acceptLevel (pins l v) : Change s (State.acceptLevel { s with pins := pins } l v)
  | resetLink (l) (open_ : s.PlanOpen) (free : s.carriesPlanned l = true → s.AllFree) : Change s (s.resetLink l)
  | clearFlags (m) : Change s (s.clearFlags m)
  | enables (m) : Change s { s with attention := { s.attention with enables := m } }
  | limits (x) : Change s { s with limits := x }
  | missReply (l p) : Change s ((s.endSlot l).missReply l p)
  | noAnswer {l p n} (awaited : (s.engine l).exchange = some (.probe p n false)) :
      Change s ((s.endSlot l).noAnswer l p)
  | report (l p permit f) : Change s (((s.endSlot l).storeReport l p f).handOn p permit)
  | bindAnnounced {l p n} (f) (awaited : (s.engine l).exchange = some (.probe p n false)) :
      Change s ((s.endSlot l).bindAnnounced l p n f)

/-- A change of the records that leaves the derived fields as they are. -/
inductive Quiet (s : State) : State → Prop
  | none : Quiet s s
  | selector (x) : Quiet s { s with port := x }
  | lock : Quiet s { s with limitsLock := true }
  | releasePlan (inService : s.plan.state = .inService) (idle : s.jog.active = .none) :
      Quiet s { s with plan := { s.plan with state := .compiled } }
  | powerOn : Quiet s s.powerOn
  | phase (x) : Quiet s { s with phase := x }
  | endWait : Quiet s s.endWait
  | sendPoll (l) : Quiet s (s.sendPoll l)
  | sendProbe (l) : Quiet s (s.sendProbe l)
  | sendAllStop (l) : Quiet s (s.sendAllStop l)
  | endSlot (l) : Quiet s (s.endSlot l)
  | startBreak (l) : Quiet s (s.startBreak l)
  | endBreak (l) : Quiet s (s.endBreak l)
  | pins (x) : Quiet s { s with pins := x }
  | debounce (pins l n) : Quiet s (State.setLine { s with pins := pins } l { s.line l with timer := n })

/-- What a command does to the state: a change that is settled at the end, or one that needs no settling (log 24). -/
inductive Effect (s : State) : State → Prop
  | settled {u} (h : Change s u) : Effect s u.settle
  | quiet {u} (h : Quiet s u) : Effect s u

end State
end Sys2Proof.Machine
end

section

/-! Every command has one of the effects of `State.Change` and `State.Quiet`: its checks, read off its definition. -/
namespace Sys2Proof.Machine

/-- A search over all ids that finds nothing. -/
theorem find?_ids_eq_none_iff {n : Nat} {test : Fin n → Bool} : (ids n).find? test = none ↔ ∀ i, test i = false := by
  simp [List.find?_eq_none]

namespace State

variable {s : State}

/-! ### What the checks establish -/

theorem freeFor_of_holderOf {a : Address} (h : s.holderOf a = none) (p : PointId) : s.FreeFor p a := by
  intro q live held
  have := find?_ids_eq_none_iff.1 h q
  simp_all

theorem freeFor_of_otherHolder {p : PointId} {a : Address} (h : s.otherHolder p a = none) : s.FreeFor p a := by
  intro q live held
  have := find?_ids_eq_none_iff.1 h q
  simp_all

theorem aloneAt_of_otherAt {b : BodyId} {pos : Position} (h : s.otherAt b pos = none) : s.AloneAt b pos := by
  intro c y held at_
  have := find?_ids_eq_none_iff.1 h c
  simp_all

/-- The checks that body requests share (R8). -/
theorem bodyRefusal_eq_none_iff {b : BodyId} {want : Bool} :
    s.bodyRefusal b want = none ↔ s.PlanOpen ∧ (s.body b).isSome = want ∧ s.AllFree := by
  rw [← busyGroup_eq_none_iff]
  unfold bodyRefusal PlanOpen
  split
  · simp_all
  split
  · simp_all
  split
  · simp_all
  cases h : s.busyGroup <;> simp_all

theorem enterable_iff {x : Point} : x.enterable = true ↔ x.life ≠ .vacant ∧ x.seat = none := by
  simp [Point.enterable]

/-! ### The requests on points (chapter 2) -/

theorem effect_enrolPoint (o : EnrolOps) : s.Effect (enrolPoint o s).2 := by
  unfold enrolPoint
  split
  next p a _ _ =>
    split
    · exact .quiet .none
    next vacant =>
      split
      · exact .quiet .none
      next free => exact .settled (.enrol (not_not.1 vacant) (freeFor_of_holderOf free p))
  · exact .quiet .none

theorem effect_bindPoint (n : Nat) : s.Effect (bindPoint n s).2 := by
  unfold bindPoint
  split
  · exact .quiet .none
  split
  · exact .quiet .none
  next idle =>
    split
    · exact .quiet .none
    next draft =>
      split
      next a address => exact .settled (.rebind (not_not.1 draft) idle address)
      · exact .quiet .none

theorem effect_retirePoint (n : Nat) : s.Effect (retirePoint n s).2 := by
  unfold retirePoint
  split
  · exact .quiet .none
  split
  · exact .quiet .none
  next enrolled =>
    split
    · exact .quiet .none
    next unseated =>
      split
      · exact .quiet .none
      · exact .settled (.retire enrolled unseated)

theorem effect_recaptureRest (n : Nat) : s.Effect (recaptureRest n s).2 := by
  unfold recaptureRest
  split
  · exact .quiet .none
  split
  · exact .quiet .none
  split
  · exact .settled (.recapture _)
  · exact .quiet .none

theorem effect_amendAddress (o : AmendPointOps) (a : Address) : s.Effect (amendAddress o a s).2 := by
  unfold amendAddress
  dsimp only
  split
  · exact .quiet .none
  split
  · exact .quiet .none
  split
  · exact .quiet .none
  next unplanned =>
    split
    · exact .quiet .none
    split
    · exact .quiet .none
    next enrolled =>
      split
      · exact .quiet .none
      next free =>
        split
        · exact .quiet .none
        · refine .settled ?_
          split
          · exact .amend _ none _
          · exact .readdress _ unplanned enrolled (freeFor_of_otherHolder free)

theorem effect_amendScope (o : AmendPointOps) : s.Effect (amendScope o s).2 := by
  unfold amendScope
  split
  · exact .quiet .none
  split
  · exact .quiet .none
  split
  · exact .quiet .none
  split
  · exact .quiet .none
  · exact .settled (.amend _ _ _)

theorem effect_amendPoint (o : AmendPointOps) : s.Effect (amendPoint o s).2 := by
  unfold amendPoint
  split
  · exact .quiet .none
  split
  · split
    · exact effect_amendAddress o _
    · exact .quiet .none
  · exact effect_amendScope o

theorem effect_findPoint (o : FindOps) : s.Effect (findPoint o s).2 := by
  unfold findPoint
  split
  · exact .quiet .none
  · exact .quiet .none
  · exact .quiet (.selector _)

/-! ### The requests on bodies (chapter 1) -/

theorem nodup_corners_of_record? {o : DefineBodyOps} {b : BodyId} {x : Body}
    (h : DefineBodyOps.record? o = some (b, x)) : x.corners.Nodup := by
  unfold DefineBodyOps.record? at h
  split at h
  next ok =>
    split at h
    next hb hp hll hlr htl htr =>
      cases h
      have nodup : [o.ll, o.lr, o.tl, o.tr].Nodup := by
        simp only [DefineBodyOps.ok, Bool.and_eq_true, distinct_eq_true_iff] at ok
        exact ok.1.1.1.1.2
      rw [← fin?_eq_some hll, ← fin?_eq_some hlr, ← fin?_eq_some htl, ← fin?_eq_some htr] at nodup
      exact List.Nodup.of_map Fin.val nodup
    · cases h
  · cases h

theorem effect_defineBody (o : DefineBodyOps) : s.Effect (defineBody o s).2 := by
  unfold defineBody
  split
  · exact .quiet .none
  next b x hr =>
    split
    · exact .quiet .none
    next passed =>
      obtain ⟨open_, empty, free⟩ := bodyRefusal_eq_none_iff.1 passed
      split
      · exact .quiet .none
      next enter =>
        split
        · exact .quiet .none
        next alone =>
          refine .settled (.define open_ free (Option.isSome_eq_false_iff.1 empty |> Option.isNone_iff_eq_none.1)
            ⟨nodup_corners_of_record? hr, fun p hp => .inr (enterable_iff.1 ?_)⟩ (aloneAt_of_otherAt alone))
          simpa using List.find?_eq_none.1 enter p hp

/-- The corners of an amended record are the distinct ones that R12 asks for. -/
theorem nodup_corners_amend {o : AmendBodyOps} {x : Body} (h : AmendBodyOps.cornersOk o (some x) = true) (ok : o.ok = true) :
    (x.amend o).corners.Nodup := by
  have val (g : Option Nat) (held : PointId) (lt : g.all (· < 48) = true) :
      resulting g (some held.val) = some (givenId g held).val := by
    cases g with
    | none => rfl
    | some n => simp_all [resulting, givenId, fin?]
  simp only [AmendBodyOps.ok, Bool.and_eq_true] at ok
  obtain ⟨⟨⟨⟨⟨⟨⟨⟨_, _⟩, ll⟩, lr⟩, tl⟩, tr⟩, _⟩, _⟩, _⟩ := ok
  simp only [AmendBodyOps.cornersOk, Option.map_some, val _ _ ll, val _ _ lr, val _ _ tl, val _ _ tr,
    distinct_eq_true_iff] at h
  exact List.Nodup.of_map Fin.val h

theorem effect_amendRecord {b : BodyId} {x y : Body} (open_ : s.PlanOpen) (free : s.AllFree) (held : s.body b = some x)
    (corners : s.Enters x.corners y) (alone : s.AloneAt b y.position) : s.Effect (s.amendRecord b x y) := by
  unfold amendRecord
  split
  · exact .quiet .none
  dsimp only
  split
  · exact .settled (.amendBody false open_ free held corners alone)
  · exact .settled (.amendBody true open_ free held corners alone)

theorem effect_amendBody (o : AmendBodyOps) : s.Effect (amendBody o s).2 := by
  unfold amendBody
  split
  · exact .quiet .none
  next b _ =>
    split
    · exact .quiet .none
    next ok =>
      split
      · exact .quiet .none
      next passed =>
        obtain ⟨open_, _, free⟩ := bodyRefusal_eq_none_iff.1 passed
        split
        · exact .quiet .none
        next x held =>
          dsimp only
          split
          · exact .quiet .none
          next enter =>
            split
            · exact .quiet .none
            next alone =>
              simp only [Bool.not_eq_true', Bool.not_eq_false, Bool.and_eq_true, held] at ok
              refine effect_amendRecord open_ free held ⟨nodup_corners_amend ok.1.2 ok.1.1, fun p hp => ?_⟩
                (aloneAt_of_otherAt alone)
              have := List.find?_eq_none.1 enter p hp
              simp only [Bool.and_eq_true, Bool.not_eq_true', not_and, Bool.not_eq_false, enterable_iff] at this
              by_cases old : p ∈ x.corners
              · exact .inl old
              · exact .inr (this (by simpa using old))

theorem effect_retireBody (n : Nat) : s.Effect (Machine.retireBody n s).2 := by
  unfold Machine.retireBody
  split
  · exact .quiet .none
  split
  · exact .quiet .none
  next passed =>
    obtain ⟨open_, _, free⟩ := bodyRefusal_eq_none_iff.1 passed
    exact .settled (.retireBody _ open_ free)

/-! ### The requests on constraints and the plan (chapter 3) -/

theorem effect_addConstraint (o : AddConstraintOps) : s.Effect (addConstraint o s).2 := by
  unfold addConstraint
  split
  · exact .quiet .none
  split
  · exact .quiet .none
  split
  · exact .quiet .none
  next notInService =>
    split
    · exact .quiet .none
    next notCompiling =>
      split
      · exact .quiet .none
      next free =>
        split
        · exact .quiet .none
        split
        · exact .quiet .none
        · exact .settled (.addCustom _ _ _ _ ⟨notInService, notCompiling⟩ (busyGroup_eq_none_iff s |>.1 free))

theorem effect_amendConstraint (o : AmendConstraintOps) : s.Effect (amendConstraint o s).2 := by
  unfold amendConstraint
  split
  · exact .quiet .none
  dsimp only
  split
  · exact .quiet .none
  split
  · exact .quiet .none
  split
  · exact .quiet .none
  split
  · exact .quiet .none
  split
  · exact .quiet .none
  next held =>
    unfold amendFields
    dsimp only [done]
    split
    · exact .quiet .none
    · exact .settled (.amendFields _ _ held)

theorem effect_retireConstraint (n : Nat) : s.Effect (retireConstraint n s).2 := by
  unfold retireConstraint
  split
  · exact .quiet .none
  split
  · exact .quiet .none
  next notInService =>
    split
    · exact .quiet .none
    next notCompiling =>
      split
      · exact .quiet .none
      split
      · exact .quiet .none
      next free => exact .settled (.retireConstraint _ ⟨notInService, notCompiling⟩ (busyGroup_eq_none_iff s |>.1 free))

theorem effect_compile : s.Effect (compile () s).2 := by
  unfold compile
  split
  · exact .quiet .none
  next notInService =>
    split
    · exact .quiet .none
    next notCompiling =>
      split
      · exact .quiet .none
      split
      · exact .quiet .none
      next free => exact .settled (.beginCompile ⟨notInService, notCompiling⟩ (busyGroup_eq_none_iff s |>.1 free))

theorem effect_releasePlan : s.Effect (releasePlan () s).2 := by
  unfold releasePlan
  split
  · exact .quiet .none
  next inService =>
    split
    · exact .quiet .none
    split
    · exact .quiet .none
    next idle =>
      split
      · exact .quiet .none
      · exact .quiet (.releasePlan (not_not.1 inService) idle)

/-! ### The requests on groups (chapter 6) -/

theorem effect_formGroup (o : FormGroupOps) : s.Effect (formGroup o s).2 := by
  unfold formGroup
  split
  · split
    · exact .quiet .none
    split
    · exact .quiet .none
    unfold formChecked
    split
    · exact .quiet .none
    next free =>
      split
      · exact .quiet .none
      next judging =>
        split
        · exact .quiet .none
        split
        · exact .quiet .none
        split
        · exact .quiet .none
        · exact .settled (.form _ (not_not.1 free) (by simpa [State.judging, or_iff_not_imp_left] using judging))
  · exact .quiet .none

/-- A run of at least one stage: the ranges of START leave no empty one (R116, R118). -/
theorem ceilDiv_pos_of_ok {m : Nat} {o : StartOps} (h : StartOps.ok m o = true) :
    0 < ceilDiv o.travel.natAbs o.step := by
  simp only [StartOps.ok, travelOk, within, Bool.and_eq_true, bne_iff_ne, decide_eq_true_eq] at h
  obtain ⟨⟨⟨_, travel, _⟩, step, _⟩, _⟩ := h
  exact Nat.div_pos (by omega) (by omega)

theorem effect_startRun (o : StartOps) : s.Effect (startRun o s).2 := by
  unfold startRun
  split
  · exact .quiet .none
  split
  · exact .quiet .none
  next ok =>
    split
    · exact .quiet .none
    split
    · exact .quiet .none
    unfold startChecked
    split
    · exact .quiet .none
    next ready =>
      split
      · exact .quiet .none
      split
      · exact .quiet .none
      split
      · exact .quiet .none
      split
      · exact .quiet .none
      split
      · exact .quiet .none
      · exact .settled (.beginRun (by simpa [or_iff_not_imp_left] using ready) (ceilDiv_pos_of_ok (by simpa using ok)))

theorem gap_of_mayContinue {g : GroupId} (h : s.mayContinue g = true) : (s.group g).state = .gap := by
  simp only [mayContinue, Bool.and_eq_true, beq_iff_eq] at h
  exact h.1.1

theorem effect_continueRun (n : Nat) : s.Effect (continueRun n s).2 := by
  unfold continueRun
  split
  · exact .quiet .none
  split
  · exact .quiet .none
  split
  next may => exact .settled (.startStage (gap_of_mayContinue may))
  · exact .quiet .none

theorem effect_amendTravel (o : AmendTravelOps) : s.Effect (amendTravel o s).2 := by
  unfold amendTravel
  split
  · exact .quiet .none
  split
  · exact .quiet .none
  split
  · exact .quiet .none
  split
  · exact .quiet .none
  unfold amendTravelChecked
  split
  · exact .quiet .none
  split
  · exact .quiet .none
  · exact .quiet .none
  next gap => exact .settled (.amendRun o gap)
  · exact .quiet .none
  · exact .quiet .none
  · exact .quiet .none

theorem effect_holdGroup (n : Nat) : s.Effect (holdGroup n s).2 := by
  unfold holdGroup
  split
  · exact .quiet .none
  split
  · exact .quiet .none
  split
  · exact .settled (.claim _ _)
  · exact .quiet .none

theorem effect_resumeGroup (n : Nat) : s.Effect (resumeGroup n s).2 := by
  unfold resumeGroup
  split
  · exact .quiet .none
  split
  · exact .quiet .none
  split
  · exact .quiet .none
  next holding =>
    split
    · exact .quiet .none
    · exact .settled (.resume (not_not.1 holding))

theorem effect_disbandGroup (n : Nat) : s.Effect (disbandGroup n s).2 := by
  unfold disbandGroup
  split
  · exact .quiet .none
  split
  · exact .quiet .none
  split
  · exact .settled (.disband _)
  · exact .quiet .none

/-! ### The requests on the permit unit, the lines and the links (chapters 4, 7, 8) -/

theorem effect_jogPoint (o : JogOps) : s.Effect (jogPoint o s).2 := by
  unfold jogPoint
  split
  · exact .quiet .none
  split
  · exact .quiet .none
  split
  · exact .quiet .none
  split
  · exact .quiet .none
  split
  · exact .quiet .none
  unfold jogChecked
  dsimp only
  split
  · exact .quiet .none
  next planned =>
    split
    · exact .quiet .none
    split
    · exact .quiet .none
    split
    · exact .quiet .none
    split
    · exact .quiet .none
    split
    · exact .quiet .none
    split
    · exact .quiet .none
    split
    · exact .quiet .none
    · exact .settled (.beginJog _ (not_not.1 planned))

theorem effect_jogCancel : s.Effect (jogCancel () s).2 := by
  unfold jogCancel
  split
  · exact .quiet .none
  split
  · exact .quiet .none
  · exact .settled (.endJog _)

theorem effect_clearStop : s.Effect (clearStop () s).2 := by
  unfold clearStop
  split
  · exact .quiet .none
  · exact .settled .clearLatch

theorem effect_setLine (o : SetLineOps) : s.Effect (Machine.setLine o s).2 := by
  unfold Machine.setLine
  split
  · split
    · exact .quiet .none
    unfold setLineChecked
    dsimp only
    split
    · exact .quiet .none
    split
    · exact .quiet .none
    · exact .settled (.rewriteLine _ _ _ _)
  · exact .quiet .none

theorem effect_setOutput (o : SetOutputOps) : s.Effect (setOutput o s).2 := by
  unfold setOutput
  split
  · exact .quiet .none
  split
  · exact .quiet .none
  · exact .settled (.output _ _)

theorem effect_linkReset (n : Nat) : s.Effect (linkReset n s).2 := by
  unfold linkReset
  split
  · exact .quiet .none
  next l _ =>
    split
    · exact .quiet .none
    next open_ =>
      split
      · exact .quiet .none
      next free =>
        split
        · exact .quiet .none
        · refine .settled (.resetLink l (by simp_all [PlanOpen]) fun carries => ?_)
          rw [if_pos carries] at free
          exact (busyGroup_eq_none_iff s).1 free

theorem effect_setLimits (o : Limits) : s.Effect (setLimits o s).2 := by
  unfold setLimits
  split
  · exact .quiet .none
  split
  · exact .quiet .none
  split
  · exact .quiet .none
  · exact .settled (.limits o)

theorem effect_partReset : s.Effect (Machine.partReset () s).2 := by
  unfold Machine.partReset
  split
  · exact .quiet .none
  split
  · exact .quiet .none
  · exact .settled .partReset

theorem effect_select (o : SelectOps) : s.Effect (select o s).2 := by
  unfold select
  split
  · exact .quiet .none
  · exact .quiet (.selector _)

/-! ### The events of the links (chapter 4) -/

theorem effect_pollUnanswered (l : LinkId) : s.Effect (s.pollUnanswered l) := by
  unfold pollUnanswered
  split
  · dsimp only
    split
    · exact .quiet (.endSlot l)
    · exact .settled (.missReply l _)
  · exact .quiet .none
  · exact .quiet .none
  · exact .quiet .none

theorem effect_probeUnanswered (l : LinkId) : s.Effect (s.probeUnanswered l) := by
  unfold probeUnanswered
  split
  next p n discard awaited =>
    dsimp only
    split
    · exact .quiet (.endSlot l)
    next credited =>
      split
      · refine .settled (.noAnswer (n := n) ?_)
        rw [awaited, Bool.eq_false_iff.2 credited]
      · exact .quiet (.endSlot l)
  · exact .quiet .none
  · exact .quiet .none
  · exact .quiet .none

theorem effect_takeReply (l : LinkId) (f : ReplyFields) : s.Effect (s.takeReply l f) := by
  unfold takeReply
  split
  · split
    · exact effect_pollUnanswered l
    dsimp only
    split
    · exact .quiet (.endSlot l)
    · exact .settled (.report l _ _ f)
  · exact effect_probeUnanswered l
  · exact .quiet .none
  · exact .quiet .none

theorem effect_takeAnnounce (l : LinkId) (f : AnnounceFields) : s.Effect (s.takeAnnounce l f) := by
  unfold takeAnnounce
  split
  next p n discard awaited =>
    split
    · exact effect_probeUnanswered l
    dsimp only
    split
    · exact .quiet (.endSlot l)
    next credited =>
      refine .settled (.bindAnnounced f ?_)
      rw [awaited, Bool.eq_false_iff.2 credited]
  · exact effect_pollUnanswered l
  · exact .quiet .none
  · exact .quiet .none

/-! ### The events of the lines, the timers and the compilation -/

theorem effect_rawChange (l : LineId) (v : Level) : s.Effect (s.rawChange l v) := by
  unfold rawChange
  split
  · exact .quiet .none
  unfold event rawEvent
  split
  · exact .quiet (.pins _)
  · exact .quiet (.pins _)
  dsimp only
  split
  · exact .quiet (.pins _)
  split
  · exact .quiet (.debounce _ l _)
  split
  · exact .settled (.acceptLevel _ l v)
  · exact .quiet (.debounce _ l _)

theorem effect_debounceExpires (l : LineId) : s.Effect (s.debounceExpires l) := by
  unfold debounceExpires
  split
  · exact .settled (.acceptLevel s.pins l _)
  · exact .quiet .none

theorem effect_expireStage (g : GroupId) : s.Effect (s.expireStage g) := by
  unfold expireStage
  dsimp only
  split
  next running => exact .settled (.expireStage running.1)
  · exact .quiet .none

theorem effect_completeCompile : s.Effect s.completeCompile := by
  unfold completeCompile
  split
  next k compiling _ =>
    split
    next built => exact .settled (.compileSucceeds compiling built)
    · exact .settled (.compileFails _ compiling)
  · exact .quiet .none

/-! ### Every command -/

/-- What a request can do, from what its meaning can do (R172 to R177, R200). -/
theorem effect_request {α : Type} {act : α → State → Answer × State} (h : ∀ o, s.Effect (act o s).2) (code : Byte)
    (ops : Carried α) : ∃ u port, s.Effect u ∧ s.request code ops act = { u with port := port } := by
  unfold request
  split
  · exact ⟨s, s.port, .quiet .none, rfl⟩
  · exact ⟨s, _, .quiet .none, rfl⟩
  · cases ops with
    | illFormed => exact ⟨s, _, .quiet .none, rfl⟩
    | takes o => exact ⟨_, _, h o, rfl⟩

/-- What an event can do, from what its meaning can do (R200). -/
theorem effect_event {act : State → State} (h : s.Effect (act s)) : s.Effect (s.event act) := by
  unfold event
  split
  · exact .quiet .none
  · exact .quiet .none
  · exact h

end State
end Sys2Proof.Machine
end

section

/-! One step: the effect of the front command, or of one microsecond; and the induction that every invariant uses. -/
namespace Sys2Proof.Machine

namespace State

/-- A state reached by an effect, with any port: what the port holds is part of no record. -/
def Reaches (s t : State) : Prop := ∃ u port, s.Effect u ∧ t = { u with port := port }

variable {s : State}

theorem Effect.reaches {t : State} (h : s.Effect t) : s.Reaches t := ⟨t, t.port, h, rfl⟩

theorem effect_readBody (n : Nat) : s.Effect (readBody n s).2 := by
  unfold readBody
  split <;> exact .quiet .none

theorem effect_readConstraint (n : Nat) : s.Effect (readConstraint n s).2 := by
  unfold readConstraint
  split <;> exact .quiet .none

theorem effect_readGroup (n : Nat) : s.Effect (readGroup n s).2 := by
  unfold readGroup
  split <;> exact .quiet .none

theorem effect_readLink (n : Nat) : s.Effect (readLink n s).2 := by
  unfold readLink
  split <;> exact .quiet .none

theorem effect_discardTransaction : s.Effect s.discardTransaction := by
  unfold discardTransaction
  split
  · exact .quiet .none
  · exact .quiet (.selector _)
  · exact .quiet (.selector _)

theorem effect_releasePin : s.Effect s.releasePin := by
  unfold releasePin
  split
  · exact .quiet (.phase _)
  · exact .quiet .none
  · exact .quiet .none

theorem effect_jogTimer : s.Effect (if s.jog.active.isSome then (s.endJog .stall).settle else s) := by
  split
  · exact .settled (.endJog _)
  · exact .quiet .none

theorem reaches_nop (ops : Carried Unit) : s.Reaches (s.nop ops) := by
  unfold nop
  split
  · exact (Effect.quiet .none).reaches
  · exact (Effect.quiet (.selector _)).reaches
  · cases ops with
    | takes _ => exact (Effect.quiet (.selector _)).reaches
    | illFormed => exact effect_request (fun _ => .quiet .none) 0x00 _

end State

open State

/-- Every command answers a next state, and has one of the effects. -/
theorem exec_eq_next (c : Instr) (s : State) : ∃ t, exec c s = .next t ∧ s.Reaches t := by
  cases c with
  | nop ops => exact ⟨_, rfl, reaches_nop ops⟩
  | select ops => exact ⟨_, rfl, effect_request effect_select _ ops⟩
  | partReset ops => exact ⟨_, rfl, effect_request (fun _ => effect_partReset) _ ops⟩
  | enrolPoint ops => exact ⟨_, rfl, effect_request effect_enrolPoint _ ops⟩
  | bind ops => exact ⟨_, rfl, effect_request effect_bindPoint _ ops⟩
  | retirePoint ops => exact ⟨_, rfl, effect_request effect_retirePoint _ ops⟩
  | recaptureRest ops => exact ⟨_, rfl, effect_request effect_recaptureRest _ ops⟩
  | amendPoint ops => exact ⟨_, rfl, effect_request effect_amendPoint _ ops⟩
  | readPoint ops => exact ⟨_, rfl, effect_request (fun _ => .quiet .none) _ ops⟩
  | findPoint ops => exact ⟨_, rfl, effect_request effect_findPoint _ ops⟩
  | defineBody ops => exact ⟨_, rfl, effect_request effect_defineBody _ ops⟩
  | amendBody ops => exact ⟨_, rfl, effect_request effect_amendBody _ ops⟩
  | retireBody ops => exact ⟨_, rfl, effect_request effect_retireBody _ ops⟩
  | readBody ops => exact ⟨_, rfl, effect_request effect_readBody _ ops⟩
  | addConstraint ops => exact ⟨_, rfl, effect_request effect_addConstraint _ ops⟩
  | amendConstraint ops => exact ⟨_, rfl, effect_request effect_amendConstraint _ ops⟩
  | retireConstraint ops => exact ⟨_, rfl, effect_request effect_retireConstraint _ ops⟩
  | readConstraint ops => exact ⟨_, rfl, effect_request effect_readConstraint _ ops⟩
  | compile ops => exact ⟨_, rfl, effect_request (fun _ => effect_compile) _ ops⟩
  | releasePlan ops => exact ⟨_, rfl, effect_request (fun _ => effect_releasePlan) _ ops⟩
  | readPlan ops => exact ⟨_, rfl, effect_request (fun _ => .quiet .none) _ ops⟩
  | formGroup ops => exact ⟨_, rfl, effect_request effect_formGroup _ ops⟩
  | start ops => exact ⟨_, rfl, effect_request effect_startRun _ ops⟩
  | continue_ ops => exact ⟨_, rfl, effect_request effect_continueRun _ ops⟩
  | amendTravel ops => exact ⟨_, rfl, effect_request effect_amendTravel _ ops⟩
  | hold ops => exact ⟨_, rfl, effect_request effect_holdGroup _ ops⟩
  | resume ops => exact ⟨_, rfl, effect_request effect_resumeGroup _ ops⟩
  | disband ops => exact ⟨_, rfl, effect_request effect_disbandGroup _ ops⟩
  | readGroup ops => exact ⟨_, rfl, effect_request effect_readGroup _ ops⟩
  | jog ops => exact ⟨_, rfl, effect_request effect_jogPoint _ ops⟩
  | jogCancel ops => exact ⟨_, rfl, effect_request (fun _ => effect_jogCancel) _ ops⟩
  | stop ops => exact ⟨_, rfl, effect_request (fun _ => .settled .setLatch) _ ops⟩
  | clearStop ops => exact ⟨_, rfl, effect_request (fun _ => effect_clearStop) _ ops⟩
  | readJog ops => exact ⟨_, rfl, effect_request (fun _ => .quiet .none) _ ops⟩
  | setLine ops => exact ⟨_, rfl, effect_request effect_setLine _ ops⟩
  | setOutput ops => exact ⟨_, rfl, effect_request effect_setOutput _ ops⟩
  | readLines ops => exact ⟨_, rfl, effect_request (fun _ => .quiet .none) _ ops⟩
  | linkReset ops => exact ⟨_, rfl, effect_request effect_linkReset _ ops⟩
  | readLink ops => exact ⟨_, rfl, effect_request effect_readLink _ ops⟩
  | readAttention ops => exact ⟨_, rfl, effect_request (fun _ => .quiet .none) _ ops⟩
  | clearAttention ops => exact ⟨_, rfl, effect_request (fun m => .settled (.clearFlags m)) _ ops⟩
  | setEnables ops => exact ⟨_, rfl, effect_request (fun m => .settled (.enables (m.setWidth 26))) _ ops⟩
  | setLimits ops => exact ⟨_, rfl, effect_request effect_setLimits _ ops⟩
  | lockLimits ops => exact ⟨_, rfl, effect_request (fun _ => .quiet .lock) _ ops⟩
  | readLimits ops => exact ⟨_, rfl, effect_request (fun _ => .quiet .none) _ ops⟩
  | readIdentity ops => exact ⟨_, rfl, effect_request (fun _ => .quiet .none) _ ops⟩
  | unknown code => exact ⟨_, rfl, effect_request (fun _ => .quiet .none) _ _⟩
  | frameError first => exact ⟨_, rfl, effect_request (fun _ => .quiet .none) _ _⟩
  | transactionDuringWait => exact ⟨_, rfl, effect_discardTransaction.reaches⟩
  | powerOn => exact ⟨_, rfl, (Effect.quiet .powerOn).reaches⟩
  | startUpWaitEnd => exact ⟨_, rfl, (Effect.quiet .endWait).reaches⟩
  | poll l => exact ⟨_, rfl, (effect_event (.quiet (.sendPoll l))).reaches⟩
  | probe l => exact ⟨_, rfl, (effect_event (.quiet (.sendProbe l))).reaches⟩
  | allStop l => exact ⟨_, rfl, (effect_event (.quiet (.sendAllStop l))).reaches⟩
  | reply l f => exact ⟨_, rfl, (effect_event (effect_takeReply l f)).reaches⟩
  | announce l f => exact ⟨_, rfl, (effect_event (effect_takeAnnounce l f)).reaches⟩
  | missedReply l => exact ⟨_, rfl, (effect_event (effect_pollUnanswered l)).reaches⟩
  | probeUnanswered l => exact ⟨_, rfl, (effect_event (effect_probeUnanswered l)).reaches⟩
  | ignoredFrame l => exact ⟨_, rfl, (Effect.quiet .none).reaches⟩
  | breakStart l => exact ⟨_, rfl, (effect_event (.quiet (.startBreak l))).reaches⟩
  | breakEnd l => exact ⟨_, rfl, (effect_event (.quiet (.endBreak l))).reaches⟩
  | rawLevelChange l v => exact ⟨_, rfl, (effect_rawChange l v).reaches⟩
  | debounceTimerExpiry l => exact ⟨_, rfl, (effect_event (effect_debounceExpires l)).reaches⟩
  | stageTimerExpiry g => exact ⟨_, rfl, (effect_event (effect_expireStage g)).reaches⟩
  | jogTimerExpiry => exact ⟨_, rfl, (effect_event effect_jogTimer).reaches⟩
  | compilationComplete => exact ⟨_, rfl, (effect_event effect_completeCompile).reaches⟩
  | resetPinRelease => exact ⟨_, rfl, effect_releasePin.reaches⟩

/-- Settles O1: a step runs the front command on the rest of the queue, and every command answers. -/
theorem stepTakesTheFrontCommand : Obligations.StepTakesTheFrontCommand := by
  refine ⟨fun s c rest h => step_cons h, fun s => ?answers⟩
  case answers =>
    cases h : s.pending with
    | nil => exact ⟨_, step_nil h⟩
    | cons c rest =>
      obtain ⟨t, next, _⟩ := exec_eq_next c { s with pending := rest }
      exact ⟨t, (step_cons h).trans next⟩

/-! ### Invariants -/

/-- What a predicate on the records needs to be kept by every step: it does not read the queue, and it is kept by a
microsecond and by every effect. -/
structure Kept (P : State → Prop) : Prop where
  pending : ∀ {s : State} (x : List Instr), P s → P { s with pending := x }
  countDown : ∀ {s : State}, P s → P s.countDown
  change : ∀ {s u : State}, P s → s.Change u → P u.settle
  quiet : ∀ {s u : State}, P s → s.Quiet u → P u

/-- The tick of an empty queue keeps such a predicate. -/
theorem Kept.tick {P : State → Prop} (h : Kept P) {s : State} (hs : P s) : P s.tick := by
  unfold State.tick
  split
  · exact hs
  next n _ => exact h.pending (s := { s with phase := .waiting (n - 1) }) _ (h.quiet hs (.phase _))
  · split
    · exact h.pending (s := s.countDown) _ (h.countDown hs)
    · exact h.pending _ hs

/-- Every step keeps a predicate that every effect keeps. -/
theorem Kept.step {P : State → Prop} (h : Kept P) (s t : State) (hs : P s) (next : step s = .next t) : P t := by
  cases queue : s.pending with
  | nil =>
    rw [step_nil queue] at next
    cases next
    exact h.tick hs
  | cons c rest =>
    rw [step_cons queue] at next
    obtain ⟨_, answer, u, port, effect, rfl⟩ := exec_eq_next c { s with pending := rest }
    rw [answer] at next
    cases next
    cases effect with
    | settled change => exact h.quiet (h.change (h.pending rest hs) change) (.selector port)
    | quiet quiet => exact h.quiet (h.quiet (h.pending rest hs) quiet) (.selector port)

end Sys2Proof.Machine
end

section

/-! The derived fields (R143, R167, R192): no change without a settling touches what they are derived from. -/
namespace Sys2Proof.Machine

@[simp] theorem Group.run_tick (x : Group) : x.tick.run = x.run := by
  unfold Group.tick
  split <;> rfl

namespace State

variable {s : State}

/-- A state whose every block is at its power-on value has nothing to settle. -/
theorem settled_initial (pins : Table Level 12) (limits : Limits) (lock : Bool) (phase : Phase) (out : DataOut)
    (pending : List Instr) (choices : Nat) : (State.initial pins limits lock phase out pending choices).Settled := by
  refine ⟨fun p => ?permit, fun l => ?drive, ?attn⟩
  case permit =>
    have vacant : (State.initial pins limits lock phase out pending choices).point p = Point.vacant := by
      simp [State.initial, State.point, Table.at]
    rw [vacant]
    rfl
  case drive =>
    have line : (State.initial pins limits lock phase out pending choices).line l = Line.powerOn l (pins.at l) := by
      simp [State.initial, State.line]
    have input : (Line.powerOn l (pins.at l)).function.isInput = true := by
      unfold Line.powerOn
      dsimp only
      split <;> rfl
    rw [line, driveOf, if_pos input]
    rfl
  case attn =>
    show false = Attention.calls ⟨1, 0, false⟩
    decide

/-- An engine is no part of what the derived fields are derived from. -/
theorem settled_setEngine (h : s.Settled) (l : LinkId) (e : Engine) : (s.setEngine l e).Settled := h

/-- A bind outcome is no part of what a permit is derived from. -/
theorem settled_mapPoints_bindOutcome (h : s.Settled) (f : PointId → Point → BindOutcome) :
    (s.mapPoints fun p x => { x with bindOutcome := f p x }).Settled := by
  refine ⟨fun p => ?_, h.2.1, h.2.2⟩
  rw [point_mapPoints]
  exact h.1 p

theorem settled_setLine_timer (h : s.Settled) (l : LineId) (n : Option Nat) :
    (s.setLine l { s.line l with timer := n }).Settled := by
  refine ⟨h.1, fun m => ?_, h.2.2⟩
  by_cases e : l = m
  · subst e
    rw [line_setLine_self]
    exact h.2.1 l
  · rw [line_setLine_of_ne s e]
    exact h.2.1 m

theorem settled_endWait (h : s.Settled) : s.endWait.Settled := by
  unfold endWait
  split
  · refine ⟨h.1, fun l => ?_, h.2.2⟩
    have sampled : State.line { s with lines := s.lines.mapAll fun l x => x.sample (s.pins.at l), phase := .running } l =
        (s.line l).sample (s.pins.at l) := by
      simp [State.line]
    rw [sampled, Line.sample]
    split
    next input =>
      have := h.2.1 l
      simp only [driveOf, input, if_true] at this ⊢
      exact this
    · exact h.2.1 l
  · exact h
  · exact h

/-! ### The commands of the links that settle nothing -/

/-- Writing the engine held changes nothing. -/
theorem setEngine_engine (s : State) (l : LinkId) : s.setEngine l (s.engine l) = s :=
  congrArg (fun x => { s with links := x }) (Table.put_at_self s.links l)

theorem sendPoll_eq (s : State) (l : LinkId) : ∃ e, s.sendPoll l = s.setEngine l e := by
  unfold sendPoll
  dsimp only
  split
  · split
    · exact ⟨_, rfl⟩
    · exact ⟨_, (setEngine_engine s l).symm⟩
    · exact ⟨_, (setEngine_engine s l).symm⟩
    · exact ⟨_, (setEngine_engine s l).symm⟩
  · exact ⟨_, (setEngine_engine s l).symm⟩

theorem sendProbe_eq (s : State) (l : LinkId) : ∃ e, s.sendProbe l = s.setEngine l e := by
  unfold sendProbe
  dsimp only
  split
  · split
    · exact ⟨_, rfl⟩
    · exact ⟨_, (setEngine_engine s l).symm⟩
    · exact ⟨_, (setEngine_engine s l).symm⟩
    · exact ⟨_, (setEngine_engine s l).symm⟩
  · exact ⟨_, (setEngine_engine s l).symm⟩

theorem sendAllStop_eq (s : State) (l : LinkId) : ∃ e, s.sendAllStop l = s.setEngine l e := by
  unfold sendAllStop
  dsimp only
  split
  · exact ⟨_, rfl⟩
  · exact ⟨_, (setEngine_engine s l).symm⟩

theorem startBreak_eq (s : State) (l : LinkId) : ∃ e, s.startBreak l = s.setEngine l e := by
  unfold startBreak
  dsimp only
  split
  · exact ⟨_, rfl⟩
  · exact ⟨_, (setEngine_engine s l).symm⟩

/-- The end of a break writes the engine, and PENDING on the DRAFT points that it queues (R91). -/
theorem endBreak_eq (s : State) (l : LinkId) :
    (∃ e, s.endBreak l = s.setEngine l e)
      ∨ ∃ e, s.endBreak l = (s.setEngine l e).mapPoints fun _ x =>
          { x with bindOutcome := if x.onLink l && x.life == .draft then .pending else x.bindOutcome } := by
  unfold endBreak
  dsimp only
  split
  · exact .inl ⟨_, (setEngine_engine s l).symm⟩
  split
  · refine .inr ⟨_, congrArg (mapPoints _) ?_⟩
    funext _ x
    split <;> rfl
  · exact .inl ⟨_, rfl⟩

theorem settled_quiet (h : s.Settled) {u : State} (quiet : s.Quiet u) : u.Settled := by
  cases quiet with
  | none => exact h
  | selector => exact h
  | lock => exact h
  | releasePlan => exact h
  | powerOn => exact settled_initial _ _ _ _ _ _ _
  | phase => exact h
  | endWait => exact settled_endWait h
  | sendPoll l =>
    obtain ⟨e, eq⟩ := sendPoll_eq s l
    exact eq ▸ settled_setEngine h l e
  | sendProbe l =>
    obtain ⟨e, eq⟩ := sendProbe_eq s l
    exact eq ▸ settled_setEngine h l e
  | sendAllStop l =>
    obtain ⟨e, eq⟩ := sendAllStop_eq s l
    exact eq ▸ settled_setEngine h l e
  | endSlot => exact h
  | startBreak l =>
    obtain ⟨e, eq⟩ := startBreak_eq s l
    exact eq ▸ settled_setEngine h l e
  | endBreak l =>
    obtain ⟨e, eq⟩ | ⟨e, eq⟩ := endBreak_eq s l
    · exact eq ▸ settled_setEngine h l e
    · rw [eq]
      exact settled_mapPoints_bindOutcome (settled_setEngine h l e) _
  | pins => exact h
  | debounce pins l n => exact settled_setLine_timer (s := { s with pins := pins }) h l n

/-! ### One microsecond -/

/-- A microsecond changes no direction, no member and no state that a permit is derived from. -/
theorem permitOf_countDown (s : State) (p : PointId) (x : Point) : s.countDown.permitOf p x = s.permitOf p x := by
  have row (rest : Permit) : permitOf.groupRow s.countDown x rest = permitOf.groupRow s x rest := by
    simp only [permitOf.groupRow, group_countDown, Group.run_tick, Group.state_tick]
  have jog : s.countDown.jog.active = s.jog.active.map fun j => { j with timer := j.timer - 1 } := rfl
  simp only [permitOf, row, jog]
  cases s.jog.active <;> rfl

theorem outputActive_countDown (s : State) (x : Line) : s.countDown.outputActive x = s.outputActive x := by
  have jog : s.countDown.jog.active.isSome = s.jog.active.isSome := by
    show (s.jog.active.map _).isSome = _
    exact Option.isSome_map
  have stop : s.countDown.stop = s.stop := rfl
  simp only [outputActive, group_countDown, Group.state_tick, jog, stop]

theorem settled_countDown (h : s.Settled) : s.countDown.Settled := by
  refine ⟨fun p => ?_, fun l => ?_, h.2.2⟩
  · rw [permitOf_countDown]
    exact h.1 p
  · rw [line_countDown, driveOf, outputActive_countDown]
    exact h.2.1 l

theorem kept_settled : Kept State.Settled where
  pending _ h := h
  countDown := settled_countDown
  change _ _ := settled_settle _
  quiet h quiet := settled_quiet h quiet

end State

/-- Settles O5: a settling follows every change of what the derived fields rest on. -/
theorem stepKeepsPermitsDrivesAndAttn : Obligations.StepKeepsPermitsDrivesAndAttn := State.kept_settled.step

end Sys2Proof.Machine
end

section

/-! What the monitor, the group engine and the permit unit are made of: a predicate that their single writes keep is kept by
everything they do with a report, a loss or a change of rest height or derating (R20). -/
namespace Sys2Proof.Machine.State

/-- A rewriting of points that touches what a judgement writes and nothing else (R20). -/
def Motion (f : PointId → Point → Point) : Prop :=
  ∀ p x, f p x = { x with
    conditions := (f p x).conditions, target := (f p x).target
    arrived := (f p x).arrived, followHeld := (f p x).followHeld }

/-- A predicate that each single write of a judgement keeps. -/
structure Stable (P : State → Prop) : Prop where
  flag : ∀ {s : State} (f : Flag), P s → P (s.raiseFlag f)
  claim : ∀ {s : State} (g : GroupId) (c : HoldCause), P s → P (s.claim g c)
  skew : ∀ {s : State} (b : BodyId) (x : Bool), P s → P (s.setSkew b x)
  constraint : ∀ {s : State} {c : ConstraintId} {x : Constraint} (st : ConstraintState) (v : Option Int),
    s.constraint c = some x → P s → P (s.setConstraint c (some { x with state := st, last := v }))
  motion : ∀ {s : State} {f : PointId → Point → Point}, Motion f → P s → P (s.mapPoints f)
  jogEnds : ∀ {s : State} (o : JogOutcome) (p : PointId), P s → P { s with jog := ⟨none, o, some p⟩ }
  choices : ∀ {s : State} (n : Nat), P s → P { s with choices := n }
  completeStage : ∀ {s : State} {g : GroupId}, (s.group g).state = .staging → P s → P (s.completeStage g)

/-- A write of one point is a rewriting of all. -/
theorem setPoint_eq_mapPoints (s : State) (p : PointId) (x : Point) :
    s.setPoint p x = s.mapPoints fun q y => if p = q then x else y := by
  have points : s.points.put p x = s.points.mapAll fun q y => if p = q then x else y :=
    Table.ext_at fun q => by rw [Table.at_put, Table.at_mapAll]
  exact congrArg (fun y => { s with points := y }) points

namespace Stable

variable {P : State → Prop} (h : Stable P) {s : State}
include h

theorem setPoint {p : PointId} {x : Point}
    (same : x = { s.point p with
      conditions := x.conditions, target := x.target, arrived := x.arrived, followHeld := x.followHeld })
    (hs : P s) : P (s.setPoint p x) := by
  have whole : s.setPoint p x = s.mapPoints fun q y => if p = q then { y with
      conditions := x.conditions, target := x.target, arrived := x.arrived, followHeld := x.followHeld } else y := by
    rw [setPoint_eq_mapPoints]
    refine congrArg (fun t => { s with points := t }) (Table.ext_at fun q => ?_)
    simp only [Table.at_mapAll]
    split
    next e =>
      subst e
      exact same
    · rfl
  rw [whole]
  refine h.motion (fun q y => ?_) hs
  split <;> rfl

/-! ### Claims and the end of a jog -/

omit h in
theorem foldl {α : Type} {f : State → α → State} (each : ∀ {s : State} (a : α), P s → P (f s a)) :
    ∀ (l : List α) {s : State}, P s → P (l.foldl f s)
  | [], _, hs => hs
  | a :: l, _, hs => foldl each l (each a hs)

theorem claimOn (g : Option GroupId) (c : HoldCause) (hs : P s) : P (s.claimOn g c) := by
  cases g with
  | none => exact hs
  | some g => exact h.claim g c hs

theorem claimAll (c : HoldCause) (hs : P s) : P (s.claimAll c) := Stable.foldl (fun g => h.claim g c) _ hs

theorem claimGroups (gs : List GroupId) (c : HoldCause) (hs : P s) : P (s.claimGroups gs c) :=
  Stable.foldl (fun g => h.claim g c) gs hs

theorem endJog (o : JogOutcome) (hs : P s) : P (s.endJog o) := by
  unfold State.endJog
  split
  · exact hs
  next j _ =>
    refine h.flag _ (h.setPoint ?_ (h.jogEnds o j.point hs))
    rfl

theorem jogNotice (p : PointId) (o : JogOutcome) (hs : P s) : P (s.jogNotice p o) := by
  unfold State.jogNotice
  split
  · split
    · exact h.endJog o hs
    · exact hs
  · exact hs

/-! ### The monitor -/

theorem noticeTerms (t : Terms) (hs : P s) : P (s.noticeTerms t) := by
  unfold State.noticeTerms
  split
  · split
    · exact h.endJog _ hs
    · exact hs
  · exact hs

theorem enterState (t : Terms) (st : ConstraintState) (hs : P s) : P (s.enterState t st) := by
  cases st with
  | idle => exact hs
  | clear => exact hs
  | warn => exact h.noticeTerms t (h.flag _ hs)
  | breach => exact h.noticeTerms t (h.claimGroups _ _ (h.flag _ hs))
  | blind => exact h.noticeTerms t (h.claimGroups _ _ (h.flag _ hs))

theorem evaluate (c : ConstraintId) (hs : P s) : P (s.evaluate c) := by
  unfold State.evaluate
  split
  · exact hs
  next x held =>
    split
    · exact hs
    · dsimp only
      split
      · exact h.constraint _ _ held hs
      · exact h.enterState _ _ (h.constraint _ _ held hs)

theorem evaluateIndex (p : PointId) (hs : P s) : P (s.evaluateIndex p) := by
  unfold State.evaluateIndex
  split
  · exact Stable.foldl (fun c => h.evaluate c) _ hs
  · exact hs

theorem evaluateAll (hs : P s) : P s.evaluateAll := Stable.foldl (fun c => h.evaluate c) _ hs

theorem judgeCondition (p : PointId) (c : Condition) (present : Bool) (hs : P s) :
    P (s.judgeCondition p c present) := by
  have written : P (s.setPoint p ((s.point p).setCondition c present)) := h.setPoint rfl hs
  unfold State.judgeCondition
  dsimp only
  split
  · refine h.jogNotice p .fault ?_
    split
    · exact h.flag _ (h.claimOn _ _ written)
    · exact h.claimOn _ _ written
  · exact written

theorem judgeConditions (p : PointId) (permit : Permit) (hs : P s) : P (s.judgeConditions p permit) :=
  Stable.foldl (fun c => h.judgeCondition p c _) _ hs

theorem judgeOverload (p : PointId) (hs : P s) : P (s.judgeOverload p) := h.judgeCondition p _ _ hs

theorem judgeSkew (b : BodyId) (hs : P s) : P (s.judgeSkew b) := by
  unfold State.judgeSkew
  split
  · exact h.skew b _ hs
  · dsimp only
    split
    · exact h.claimOn _ _ (h.flag _ (h.skew b _ hs))
    · exact h.skew b _ hs

theorem judgeSkewOf (p : PointId) (hs : P s) : P (s.judgeSkewOf p) := by
  unfold State.judgeSkewOf
  split
  · exact h.judgeSkew _ hs
  · exact hs

/-! ### The group engine and the permit unit -/

theorem evalFollow (g : GroupId) (hs : P s) : P (s.evalFollow g) := by
  unfold State.evalFollow
  split
  · exact hs
  · refine h.motion (fun p x => ?_) hs
    split <;> rfl

theorem judgeArrival (g : GroupId) (p : PointId) (hs : P s) : P (s.judgeArrival g p) := by
  unfold State.judgeArrival
  split
  · exact h.setPoint rfl hs
  · exact hs

theorem recordArrival (g : GroupId) (p : PointId) (hs : P s) : P (s.recordArrival g p) := by
  unfold State.recordArrival
  split
  · exact h.setPoint rfl hs
  · exact hs

end Stable

theorem group_judgeArrival (s : State) (g g' : GroupId) (p : PointId) : (s.judgeArrival g p).group g' = s.group g' := by
  unfold State.judgeArrival
  split <;> rfl

theorem group_evalFollow (s : State) (g g' : GroupId) : (s.evalFollow g).group g' = s.group g' := by
  unfold State.evalFollow
  split <;> rfl

namespace Stable

variable {P : State → Prop} (h : Stable P) {s : State}
include h

theorem groupTakes (p : PointId) (hs : P s) : P (s.groupTakes p) := by
  unfold State.groupTakes
  split
  · exact hs
  next g _ =>
    split
    next staging =>
      have judged := h.evalFollow g (h.judgeArrival g p hs)
      dsimp only
      split
      · refine h.completeStage ?_ judged
        rw [group_evalFollow, group_judgeArrival]
        exact staging
      · exact judged
    · exact h.recordArrival g p hs
    all_goals exact hs

theorem jogTakes (p : PointId) (hs : P s) : P (s.jogTakes p) := by
  unfold State.jogTakes
  split
  · exact hs
  · split
    · exact h.endJog _ hs
    · exact hs

/-- What the three blocks make of a report, in whatever order (R80). -/
theorem handOn (p : PointId) (permit : Permit) (hs : P s) : P (s.handOn p permit) := by
  have conditionsFirst {s : State} (hs : P s) : P (s.monitorConditionsFirst p permit) :=
    h.judgeSkewOf p (h.evaluateIndex p (h.judgeConditions p permit hs))
  have constraintsFirst {s : State} (hs : P s) : P (s.monitorConstraintsFirst p permit) :=
    h.judgeSkewOf p (h.judgeConditions p permit (h.evaluateIndex p hs))
  have moves {s : State} (hs : P s) : P ((s.groupTakes p).jogTakes p) := h.jogTakes p (h.groupTakes p hs)
  refine chooseOrder_ind _ _ (fun t n ht => h.choices n ht) (moves (conditionsFirst hs)) fun t ht => ?_
  simp only [List.mem_cons, List.not_mem_nil, or_false] at ht
  obtain rfl | rfl | rfl := ht
  · exact moves (constraintsFirst hs)
  · exact conditionsFirst (moves hs)
  · exact constraintsFirst (moves hs)

/-- What follows for the blocks from the loss of a point, in either order (R81, R150). -/
theorem lose {l : LinkId} {p : PointId}
    (hs : P ((s.setPoint p { s.point p with health := .lost }).setGoodRun l p 0)) : P (s.lose l p) := by
  have claimed := h.claimOn (s.point p).group .lost (h.flag .lost hs)
  unfold State.lose
  dsimp only
  rw [show (State.point (State.setGoodRun (s.setPoint p { s.point p with health := .lost }) l p 0) p).group
      = (s.point p).group by
    show ((s.setPoint p { s.point p with health := .lost }).point p).group = _
    rw [point_setPoint_self]]
  refine chooseOrder_ind _ _ (fun t n ht => h.choices n ht) (h.jogNotice _ _ (h.evaluateIndex _ claimed)) fun t ht => ?_
  simp only [List.mem_cons, List.not_mem_nil, or_false] at ht
  subst ht
  exact h.evaluateIndex _ (h.jogNotice _ _ claimed)

/-- A derating is written, and OVERLOAD judged where it changed (R41, R104). -/
theorem writeDerating {set : List PointId} {d : Nat}
    (hs : P (s.mapPoints fun p x => if set.contains p then { x with derated := some d } else x)) :
    P (s.writeDerating set (some d)) := Stable.foldl (fun p => h.judgeOverload p) _ hs

end Stable

/-- What rests on fields that no judgement writes is kept by each write of one (R20). -/
theorem stable_of_judged {P : State → Prop} (hP : ∀ {s t : State}, s.Judged t → P s → P t) : Stable P where
  flag f hs := hP (Judged.raiseFlag _ f) hs
  claim g c hs := hP (Judged.claim _ g c) hs
  skew b x hs := hP (Judged.setSkew _ b x) hs
  constraint st v held hs := hP (Judged.setConstraint _ _ _ st v held) hs
  motion hf hs := hP (Judged.mapPoints _ _ hf) hs
  jogEnds {s} _ _ hs := hP (Judged.of_fields (s := s) rfl rfl (fun _ => rfl) rfl rfl rfl rfl rfl rfl rfl rfl rfl rfl rfl) hs
  choices n hs := hP (Judged.choices _ n) hs
  completeStage _ hs := hP (Judged.completeStage _ _) hs

end Sys2Proof.Machine.State
end

section

/-! The group records as a state machine (R110 to R137): every step moves a group by one of a few transitions, so a
predicate of one group record that those keep is kept by every step. -/
namespace Sys2Proof

theorem Table.put_put {α : Type} {n : Nat} (t : Table α n) (i : Fin n) (a b : α) : (t.put i a).put i b = t.put i b :=
  Table.ext_at fun j => by
    simp only [Table.at_put]
    split <;> rfl

namespace Machine

/-- The run once one more stage is done (R124). -/
def Run.advanced (r : Run) : Run := { r with done := r.done + 1, completed := r.targetProgress }

namespace State

variable {s : State}

theorem setGroup_setGroup (s : State) (g : GroupId) (x y : Group) : (s.setGroup g x).setGroup g y = s.setGroup g y :=
  congrArg (fun t => { s with groups := t }) (Table.put_put s.groups g x y)

theorem setPoint_setPoint (s : State) (p : PointId) (x y : Point) : (s.setPoint p x).setPoint p y = s.setPoint p y :=
  congrArg (fun t => { s with points := t }) (Table.put_put s.points p x y)

theorem group_setGroup (s : State) (g h : GroupId) (x : Group) :
    (s.setGroup g x).group h = if g = h then x else s.group h := Table.at_put _ _ _ _

theorem point_setPoint (s : State) (p q : PointId) (x : Point) :
    (s.setPoint p x).point q = if p = q then x else s.point q := Table.at_put _ _ _ _

/-! ### Stages (R119, R124) -/

theorem startStage_of_run_none {g : GroupId} (h : (s.group g).run = none) : s.startStage g = s := by
  unfold startStage
  rw [h]

/-- The group record at the start of a stage (R119). -/
theorem group_startStage {g : GroupId} {r : Run} (h : (s.group g).run = some r) (g' : GroupId) :
    (s.startStage g).group g' = if g = g' then { s.group g with
      state := .staging, timer := some (s.limits.stageTimeout * Config.usPerSecond) } else s.group g' := by
  unfold startStage
  rw [h]
  exact group_setGroup _ _ _ _

theorem attention_startStage (s : State) (g : GroupId) : (s.startStage g).attention = s.attention := by
  unfold startStage
  split <;> rfl

theorem completeStage_of_run_none {g : GroupId} (h : (s.group g).run = none) : s.completeStage g = s := by
  unfold completeStage
  dsimp only
  rw [h]

/-- A completion by its three outcomes: the last stage, a gap, the next stage (R124). -/
theorem completeStage_of_run {g : GroupId} {r : Run} (h : (s.group g).run = some r) :
    s.completeStage g =
      if r.done + 1 = r.count then
        ((s.setGroup g { s.group g with run := some r.advanced, timer := none, state := .arrived }).raiseFlag
          (.stage g)).raiseFlag (.arrived g)
      else if r.gap ≠ 0 ∧ (r.done + 1) % r.gap = 0 then
        ((s.setGroup g { s.group g with run := some r.advanced, timer := none, state := .gap }).raiseFlag
          (.stage g)).raiseFlag (.gap g)
      else ((s.setGroup g { s.group g with run := some r.advanced, timer := none }).raiseFlag (.stage g)).startStage g := by
  have again (x y : Group) : ((s.setGroup g x).raiseFlag (.stage g)).setGroup g y =
      (s.setGroup g y).raiseFlag (.stage g) := by
    show State.raiseFlag ((s.setGroup g x).setGroup g y) _ = _
    rw [setGroup_setGroup]
  have held (x : Group) : ((s.setGroup g x).raiseFlag (.stage g)).group g = x := group_setGroup_self s g x
  unfold completeStage
  simp only [h, again, held]
  rfl

/-- The other groups stand when a stage of one completes. -/
theorem group_completeStage_of_ne {g g' : GroupId} (ne : g ≠ g') : (s.completeStage g).group g' = s.group g' := by
  cases h : (s.group g).run with
  | none => rw [completeStage_of_run_none h]
  | some r =>
    rw [completeStage_of_run h]
    have written (x : Group) (f : Flag) : ((s.setGroup g x).raiseFlag f).group g' = s.group g' :=
      group_setGroup_of_ne s ne x
    split
    · exact written _ .line
    split
    · exact written _ .line
    · rw [group_startStage (r := r.advanced) (congrArg Group.run (group_setGroup_self s g _)), if_neg ne]
      exact written _ _

/-- The group record when its stage completes (R124). -/
theorem group_completeStage {g : GroupId} {r : Run} (h : (s.group g).run = some r) :
    (s.completeStage g).group g = { s.group g with
      run := some r.advanced
      state := if r.done + 1 = r.count then .arrived
        else if r.gap ≠ 0 ∧ (r.done + 1) % r.gap = 0 then .gap else .staging
      timer := if r.done + 1 = r.count ∨ (r.gap ≠ 0 ∧ (r.done + 1) % r.gap = 0) then none
        else some (s.limits.stageTimeout * Config.usPerSecond) } := by
  rw [completeStage_of_run h]
  have written (x : Group) (f : Flag) : ((s.setGroup g x).raiseFlag f).group g = x := group_setGroup_self s g x
  split
  next last =>
    rw [if_pos (.inl last)]
    exact written _ .line
  next more =>
    split
    next gap =>
      rw [if_pos (.inr gap)]
      exact written _ .line
    next goes =>
      rw [group_startStage (r := r.advanced) (congrArg Group.run (written _ _)), if_pos rfl, written,
        if_neg (not_or.2 ⟨more, goes⟩)]
      rfl

end State

/-- The transitions of a group record (R110 to R137). -/
inductive GroupMove : Group → Group → Prop
  | free (x) : GroupMove x Group.free
  | formed (x m) : GroupMove x { Group.free with state := .formed, members := m }
  | timer (x n) : GroupMove x { x with timer := n }
  | claimStaging {x} (m) (staging : x.state = .staging) :
      GroupMove x { x with state := .holding, heldFrom := some .staging, causes := m }
  | claimGap {x} (m) (gap : x.state = .gap) :
      GroupMove x { x with state := .holding, heldFrom := some .gap, causes := m }
  | claimHolding {x} (m) (holding : x.state = .holding) : GroupMove x { x with causes := m }
  | begin {x r} (ready : x.state = .formed ∨ x.state = .arrived) (more : r.done < r.count) :
      GroupMove x { x with run := some r }
  | firstStage {x r} (n) (ready : x.state = .formed ∨ x.state = .arrived) (run : x.run = some r)
      (more : r.done < r.count) : GroupMove x { x with state := .staging, timer := n }
  | nextStage {x} (n) (ready : x.state = .gap ∨ x.state = .staging) :
      GroupMove x { x with state := .staging, timer := n }
  | last {x r} (staging : x.state = .staging) (run : x.run = some r) (all : r.done + 1 = r.count) :
      GroupMove x { x with run := some r.advanced, timer := none, state := .arrived }
  | gap {x r} (staging : x.state = .staging) (run : x.run = some r) (more : r.done + 1 ≠ r.count) :
      GroupMove x { x with run := some r.advanced, timer := none, state := .gap }
  | advance {x r} (staging : x.state = .staging) (run : x.run = some r) (more : r.done + 1 ≠ r.count) :
      GroupMove x { x with run := some r.advanced, timer := none }
  | amend {x r r'} (gap : x.state = .gap) (run : x.run = some r) (done : r'.done = r.done) (more : r.done < r'.count) :
      GroupMove x { x with run := some r' }
  | amendLast {x r r'} (gap : x.state = .gap) (run : x.run = some r) (last : r'.count = r'.done) :
      GroupMove x { x with run := some r', state := .arrived }
  | resumeStaging {x} (n) (holding : x.state = .holding) :
      GroupMove x { x with state := .staging, heldFrom := none, causes := 0, timer := n }
  | resumeGap {x} (holding : x.state = .holding) :
      GroupMove x { x with state := .gap, heldFrom := none, causes := 0, timer := none }

end Machine
end Sys2Proof
end

section

/-! The shape of each change, said once: which fields an operation writes, its other parts being judgements. -/
namespace Sys2Proof.Machine.State

variable {s : State}

/-! ### Points and links (chapters 2 and 4) -/

theorem idleIfEmpty_eq (s : State) (l : LinkId) : ∃ e, s.idleIfEmpty l = s.setEngine l e := by
  unfold idleIfEmpty
  split
  · exact ⟨_, rfl⟩
  · exact ⟨_, (setEngine_engine s l).symm⟩

/-- RETIRE-POINT writes the point and its link (R42). -/
theorem retire_eq (s : State) (p : PointId) :
    s.retire p = { s with points := s.points.put p Point.vacant, links := (s.retire p).links } := by
  unfold retire
  dsimp only
  split
  next a _ =>
    obtain ⟨e, eq⟩ := idleIfEmpty_eq
      (State.setEngine (s.setPoint p Point.vacant) a.link
        ((State.engine (s.setPoint p Point.vacant) a.link).without p)) a.link
    rw [eq]
    rfl
  · rfl

/-- The point and the links as an address amendment leaves them, before the skew entry is judged (R40). -/
theorem readdress_eq (s : State) (p : PointId) (a : Address) :
    ∃ links, s.readdress p a = State.judgeSkewOf
      { s with points := s.points.put p { (s.point p).unbind with address := some a }, links := links } p := by
  have idle (t : State) (l : LinkId) : ∃ e, t.idleIfEmpty l = t.setEngine l e := idleIfEmpty_eq t l
  unfold readdress
  dsimp only
  split
  next o _ =>
    split
    · exact ⟨_, rfl⟩
    · obtain ⟨e, eq⟩ := idle (State.setEngine (s.setPoint p { (s.point p).unbind with address := some a }) o.link
        ((State.engine (s.setPoint p { (s.point p).unbind with address := some a }) o.link).without p)) o.link
      rw [eq]
      exact ⟨_, rfl⟩
  · exact ⟨_, rfl⟩

/-- An inhibit value is all that `writeInhibit` writes (R41). -/
theorem writeInhibit_eq (s : State) (set : List PointId) (v : Option Bool) :
    ∃ f : PointId → Point → Bool, s.writeInhibit set v = s.mapPoints fun p x => { x with inhibit := f p x } := by
  cases v with
  | none =>
    refine ⟨fun _ x => x.inhibit, ?_⟩
    exact congrArg (fun t => { s with points := t }) 
      (Table.mapAll_eq_self s.points (fun _ x => { x with inhibit := x.inhibit }) fun _ => rfl).symm
  | some b =>
    refine ⟨fun p x => if set.contains p then b else x.inhibit, congrArg s.mapPoints ?_⟩
    funext p x
    dsimp only
    split <;> rfl

/-- A stored report writes report fields, health and missed replies of its point, the good run of its roster entry, and
FOUND (R80, R82). -/
theorem storeReport_cases (s : State) (l : LinkId) (p : PointId) (f : ReplyFields) :
    s.storeReport l p f = s.setPoint p ((s.point p).report f)
      ∨ s.storeReport l p f = (s.setPoint p ((s.point p).report f)).setGoodRun l p 1
      ∨ s.storeReport l p f =
        ((s.setPoint p { (s.point p).report f with health := .live }).setGoodRun l p 0).raiseFlag .found := by
  unfold storeReport
  dsimp only
  split
  · exact .inl rfl
  split
  · exact .inr (.inl rfl)
  · rw [point_setPoint_self, setPoint_setPoint]
    exact .inr (.inr rfl)

/-- A missed reply writes the count, the good run of a LOST point, or makes the point LOST (R81). -/
theorem missReply_cases (s : State) (l : LinkId) (p : PointId) :
    ∃ n, s.missReply l p = s.setPoint p { s.point p with missed := n }
      ∨ s.missReply l p = (s.setPoint p { s.point p with missed := n }).setGoodRun l p 0
      ∨ s.missReply l p = State.lose (s.setPoint p { s.point p with missed := n }) l p := by
  unfold missReply
  dsimp only
  split
  · exact ⟨_, .inr (.inl rfl)⟩
  split
  · exact ⟨_, .inr (.inr rfl)⟩
  · exact ⟨_, .inl rfl⟩

/-- An accepted LINK-RESET writes points and the engine, takes the plan's fall where it unbinds a PLANNED point, and
judges skew entries (R90, R107). -/
theorem resetLink_eq (s : State) (l : LinkId) :
    ∃ unbound : List PointId, s.resetLink l = unbound.foldl State.judgeSkewOf
      (if s.carriesPlanned l then
        ((s.mapPoints fun _ x => if x.onLink l then x.linkReset else x).setEngine l (s.engine l).reset).planTo .drafted
      else (s.mapPoints fun _ x => if x.onLink l then x.linkReset else x).setEngine l (s.engine l).reset) :=
  ⟨_, rfl⟩

/-! ### The plan and the groups (chapters 3 and 6) -/

theorem enterService_eq (s : State) : s.enterService = { s with plan := s.enterService.plan } := by
  unfold enterService
  split <;> rfl

theorem draftIfCompiled_eq (s : State) :
    s.draftIfCompiled = if s.plan.state = .compiled then s.planTo .drafted else s := rfl

/-- The build of a compilation writes constraint records and indexes (R61, R62). -/
theorem build_eq {j w : Nat} {t : State} (h : s.build j w = .ok t) :
    ∃ (constraints : Table (Option Constraint) 128) (f : PointId → Point → List ConstraintId),
      t = State.mapPoints { s with constraints := constraints } fun p x => { x with index := f p x } := by
  unfold build at h
  split at h
  · cases h
  split at h
  · cases h
  next u built =>
    obtain ⟨hu, _⟩ := buildAll_eq j w s.bodiesInOrder s u built
    unfold writeIndexes at h
    split at h
    · cases h
    · cases h
      refine ⟨u.constraints, fun p x => if x.seat.isSome then u.indexOf p else x.index, ?_⟩
      have map : (fun p x => if x.seat.isSome = true then { x with index := u.indexOf p } else x) =
          fun (p : PointId) (x : Point) => { x with index := if x.seat.isSome then u.indexOf p else x.index } := by
        funext p x
        split <;> rfl
      rw [map]
      exact congrArg (fun v => State.mapPoints v _) hu

end Sys2Proof.Machine.State
end

section

/-! The groups, the stop latch and the flags (R110, R120, R154): a predicate of these alone, kept by the transitions of a
group, by the latch and by the flags, is kept by every step. -/
namespace Sys2Proof
namespace Machine

/-- A predicate that reads the groups, the latch and the flags alone, and that their transitions keep. -/
structure ControlLaw (P : State → Prop) : Prop where
  frame : ∀ {s t : State}, P s → t.groups = s.groups → t.stop = s.stop → t.attention.flags = s.attention.flags → P t
  initial : ∀ (pins : Table Level 12) (limits : Limits) (lock : Bool) (phase : Phase) (out : DataOut)
    (pending : List Instr) (choices : Nat), P (State.initial pins limits lock phase out pending choices)
  move : ∀ {s : State} {g : GroupId} {x : Group}, P s → GroupMove (s.group g) x → P (s.setGroup g x)
  flag : ∀ {s : State} (f : Flag), P s → P (s.raiseFlag f)
  latch : ∀ {s : State}, P s → P s.setLatch
  unlatch : ∀ {s : State}, P s → P { s with stop := false }
  clear : ∀ {s : State} (m : BitVec 32), P s → P (s.clearFlags m)

namespace ControlLaw

open State

variable {P : State → Prop} (law : ControlLaw P) {s : State}
include law

theorem claim (g : GroupId) (c : HoldCause) (hs : P s) : P (s.claim g c) := by
  unfold State.claim
  dsimp only
  split
  next staging => exact law.flag _ (law.move hs (.claimStaging _ staging))
  next gap => exact law.flag _ (law.move hs (.claimGap _ gap))
  next holding => exact law.move hs (.claimHolding _ holding)
  all_goals exact hs

theorem startStage {g : GroupId} (ready : (s.group g).state = .gap ∨ (s.group g).state = .staging) (hs : P s) :
    P (s.startStage g) := by
  unfold State.startStage
  split
  · exact hs
  · exact law.move (law.frame hs rfl rfl rfl) (.nextStage _ ready)

theorem completeStage {g : GroupId} (staging : (s.group g).state = .staging) (hs : P s) : P (s.completeStage g) := by
  cases run : (s.group g).run with
  | none =>
    rw [completeStage_of_run_none run]
    exact hs
  | some r =>
    rw [completeStage_of_run run]
    split
    next all => exact law.flag _ (law.flag _ (law.move hs (.last staging run all)))
    next more =>
      split
      · exact law.flag _ (law.flag _ (law.move hs (.gap staging run more)))
      · refine law.startStage (.inr ?_) (law.flag _ (law.move hs (.advance staging run more)))
        exact (congrArg Group.state (group_setGroup_self s g _)).trans staging

/-- The blocks that judge a report move groups and raise flags by their transitions alone. -/
theorem stable : Stable P where
  flag f hs := law.flag f hs
  claim g c hs := law.claim g c hs
  skew _ _ hs := law.frame hs rfl rfl rfl
  constraint _ _ _ hs := law.frame hs rfl rfl rfl
  motion _ hs := law.frame hs rfl rfl rfl
  jogEnds _ _ hs := law.frame hs rfl rfl rfl
  choices _ hs := law.frame hs rfl rfl rfl
  completeStage staging hs := law.completeStage staging hs

theorem planTo (st : PlanState) (hs : P s) : P (s.planTo st) := by
  rw [planTo_eq]
  exact law.frame hs rfl rfl rfl

theorem draftIfCompiled (hs : P s) : P s.draftIfCompiled := by
  unfold State.draftIfCompiled
  split
  · exact law.planTo _ hs
  · exact hs

theorem enterService (hs : P s) : P s.enterService := by
  rw [enterService_eq]
  exact law.frame hs rfl rfl rfl

theorem beginRun {g : GroupId} {o : StartOps} (ready : (s.group g).state = .formed ∨ (s.group g).state = .arrived)
    (stages : 0 < ceilDiv o.travel.natAbs o.step) (hs : P s) : P (s.beginRun g o) := by
  refine law.enterService ?_
  have begun : P (s.setGroup g { s.group g with
      run := some ⟨o.travel, o.step, o.gap, ceilDiv o.travel.natAbs o.step, 0, 0⟩ }) := law.move hs (.begin ready stages)
  unfold State.startStage
  rw [group_setGroup_self]
  refine law.frame (law.move (g := g) begun (.firstStage
    (some (s.limits.stageTimeout * Config.usPerSecond)) ?_ (congrArg Group.run (group_setGroup_self s g _)) stages))
    ?_ rfl rfl
  · rw [group_setGroup_self]
    exact ready
  · rw [group_setGroup_self]
    show (s.groups.put g _).put g _ = (s.groups.put g _).put g _
    rw [show (State.group (State.mapPoints (State.setGroup (s.mapPoints _) g _) _) g) = _ from group_setGroup_self s g _]
    rfl

theorem amendRun {g : GroupId} (o : AmendTravelOps) (gap : (s.group g).state = .gap) (hs : P s) : P (s.amendRun g o) := by
  unfold State.amendRun
  split
  · exact hs
  next r run =>
    dsimp only
    split
    next last => exact law.flag _ (law.move hs (.amendLast gap run last))
    next more =>
      refine law.move hs (.amend gap run rfl ?_)
      have : r.done ≤ (r.amend o).count := Nat.le_add_right _ _
      have : (r.amend o).done = r.done := rfl
      omega

theorem resumeFrom {g : GroupId} (holding : (s.group g).state = .holding) (hs : P s) : P (s.resumeFrom g) := by
  unfold State.resumeFrom
  split
  · have goes := law.stable.evalFollow g (law.move hs (.resumeStaging
      (some (s.limits.stageTimeout * Config.usPerSecond)) holding))
    unfold State.resumeStage
    dsimp only
    split
    · refine law.completeStage ?_ goes
      rw [group_evalFollow, group_setGroup_self]
    · exact goes
  · exact law.move hs (.resumeGap holding)
  · exact hs

/-- What an assertion does, by the line's function (R162 to R166). -/
theorem takeAssertion (l : LineId) (hs : P s) : P (s.takeAssertion l) := by
  unfold State.takeAssertion
  dsimp only
  split
  · exact law.latch hs
  · exact law.stable.claimAll _ hs
  · split
    · exact law.claim _ _ hs
    · exact law.stable.claimAll _ hs
    · exact hs
  · split
    · split
      next may => exact law.startStage (.inl (gap_of_mayContinue may)) hs
      · exact hs
    · exact hs
    · exact hs
  · exact law.flag _ hs
  all_goals exact hs

theorem writeInhibit (set : List PointId) (v : Option Bool) (hs : P s) : P (s.writeInhibit set v) := by
  obtain ⟨f, eq⟩ := writeInhibit_eq s set v
  rw [eq]
  exact law.frame hs rfl rfl rfl

/-- The body table is written and the plan falls (R9, R53). -/
theorem planAfterBodies (b : BodyId) (x : Option Body) (hs : P s) : P (s.writeBody b x).planAfterBodies :=
  law.planTo (s := s.writeBody b x) _ (law.frame hs rfl rfl rfl)

/-- Every change of the records keeps it. -/
theorem change (hs : P s) {u : State} (change : s.Change u) : P u := by
  have stable := law.stable
  have points (x : Table Point 48) (l : Table Engine 4) : P { s with points := x, links := l } :=
    law.frame hs rfl rfl rfl
  cases change with
  | partReset => exact law.frame (law.initial s.pins s.limits s.limitsLock .running s.port.out s.pending s.choices) rfl rfl rfl
  | enrol => exact points _ _
  | rebind => exact points _ _
  | retire =>
    rw [retire_eq]
    exact points _ _
  | recapture p => exact stable.evaluateIndex p (points _ s.links)
  | readdress v =>
    obtain ⟨links, moved⟩ := readdress_eq s _ _
    refine law.writeInhibit _ v ?_
    rw [moved]
    exact stable.judgeSkewOf _ (points _ links)
  | amend set d v =>
    refine law.writeInhibit _ v ?_
    cases d with
    | none => exact hs
    | some d => exact stable.writeDerating (points _ s.links)
  | define => exact stable.judgeSkew _ (law.planAfterBodies _ _ hs)
  | amendBody skew =>
    split
    · exact stable.judgeSkew _ (law.planAfterBodies _ _ hs)
    · exact law.planAfterBodies _ _ hs
  | retireBody => exact stable.judgeSkew _ (law.planAfterBodies _ _ hs)
  | addCustom => exact law.draftIfCompiled (law.frame hs rfl rfl rfl)
  | amendFields =>
    split
    · exact stable.evaluate _ (law.frame hs rfl rfl rfl)
    · exact law.frame hs rfl rfl rfl
  | retireConstraint => exact law.draftIfCompiled (law.frame hs rfl rfl rfl)
  | beginCompile => exact law.frame (law.planTo .compiling hs) rfl rfl rfl
  | compileSucceeds _ built =>
    obtain ⟨constraints, f, rfl⟩ := build_eq built
    exact stable.flag .plan (stable.evaluateAll (law.frame hs rfl rfl rfl))
  | compileFails => exact law.flag .plan (law.frame hs rfl rfl rfl)
  | @form g bs => exact law.move (g := g) (law.frame (t := State.mapPoints (s.mapBodies _) _) hs rfl rfl rfl) (.formed _ _)
  | beginRun ready stages => exact law.beginRun ready stages hs
  | startStage gap => exact law.startStage (.inl gap) hs
  | amendRun o gap => exact law.amendRun o gap hs
  | claim g c => exact law.claim g c hs
  | resume holding => exact law.resumeFrom holding hs
  | disband g => exact law.move (g := g) (law.frame (t := State.mapPoints (s.mapBodies _) _) hs rfl rfl rfl) (.free _)
  | expireStage => exact law.claim _ _ (law.move hs (.timer _ _))
  | beginJog => exact law.enterService (law.frame hs rfl rfl rfl)
  | endJog o => exact stable.endJog o hs
  | setLatch => exact law.latch hs
  | clearLatch => exact law.unlatch hs
  | rewriteLine l =>
    unfold rewriteLine
    dsimp only
    split
    · exact law.takeAssertion l (law.frame hs rfl rfl rfl)
    · exact law.frame hs rfl rfl rfl
  | output => exact law.frame hs rfl rfl rfl
  | acceptLevel pins l v =>
    unfold acceptLevel takeRelease
    dsimp only
    split
    · exact law.takeAssertion l (law.frame hs rfl rfl rfl)
    split
    · split
      · exact law.flag _ (law.frame hs rfl rfl rfl)
      · exact law.frame hs rfl rfl rfl
    · exact law.frame hs rfl rfl rfl
  | resetLink l =>
    obtain ⟨unbound, eq⟩ := resetLink_eq s l
    rw [eq]
    refine Stable.foldl (fun p => stable.judgeSkewOf p) unbound ?_
    split
    · exact law.planTo .drafted (points _ _)
    · exact points _ _
  | clearFlags m => exact law.clear m hs
  | enables => exact law.frame hs rfl rfl rfl
  | limits => exact law.frame hs rfl rfl rfl
  | missReply l p =>
    obtain ⟨n, eq | eq | eq⟩ := missReply_cases (s.endSlot l) l p
    · rw [eq]
      exact points _ _
    · rw [eq]
      exact points _ _
    · rw [eq]
      exact stable.lose (points _ _)
  | noAnswer => exact law.flag _ (points _ _)
  | report l p permit f =>
    refine stable.handOn p permit ?_
    obtain eq | eq | eq := storeReport_cases (s.endSlot l) l p f
    · rw [eq]
      exact points _ _
    · rw [eq]
      exact points _ _
    · rw [eq]
      exact law.flag _ (points _ _)
  | bindAnnounced => exact law.flag _ (points _ _)

/-- So does every effect that settles nothing. -/
theorem quiet (hs : P s) {u : State} (quiet : s.Quiet u) : P u := by
  cases quiet with
  | none => exact hs
  | selector => exact law.frame hs rfl rfl rfl
  | lock => exact law.frame hs rfl rfl rfl
  | releasePlan => exact law.frame hs rfl rfl rfl
  | powerOn => exact law.initial _ _ _ _ _ _ _
  | phase => exact law.frame hs rfl rfl rfl
  | endWait =>
    unfold State.endWait
    split
    · exact law.frame hs rfl rfl rfl
    · exact hs
    · exact hs
  | sendPoll l =>
    obtain ⟨e, eq⟩ := sendPoll_eq s l
    exact eq ▸ law.frame hs rfl rfl rfl
  | sendProbe l =>
    obtain ⟨e, eq⟩ := sendProbe_eq s l
    exact eq ▸ law.frame hs rfl rfl rfl
  | sendAllStop l =>
    obtain ⟨e, eq⟩ := sendAllStop_eq s l
    exact eq ▸ law.frame hs rfl rfl rfl
  | endSlot => exact law.frame hs rfl rfl rfl
  | startBreak l =>
    obtain ⟨e, eq⟩ := startBreak_eq s l
    exact eq ▸ law.frame hs rfl rfl rfl
  | endBreak l =>
    obtain ⟨e, eq⟩ | ⟨e, eq⟩ := endBreak_eq s l
    · exact eq ▸ law.frame hs rfl rfl rfl
    · exact eq ▸ law.frame hs rfl rfl rfl
  | pins => exact law.frame hs rfl rfl rfl
  | debounce => exact law.frame hs rfl rfl rfl

theorem kept (countDown : ∀ {s : State}, P s → P s.countDown) : Kept P where
  pending _ hs := law.frame hs rfl rfl rfl
  countDown := countDown
  change hs change := law.frame (law.change hs change) rfl rfl rfl
  quiet hs quiet := law.quiet hs quiet

end ControlLaw

/-! ### The group records (R110, R120) -/

/-- Every group record satisfies a predicate. -/
def State.Groups (Q : Group → Prop) (s : State) : Prop := ∀ g, Q (s.group g)

theorem State.Groups.setGroup {Q : Group → Prop} {s : State} {g : GroupId} {x : Group} (hs : s.Groups Q) (hx : Q x) :
    (s.setGroup g x).Groups Q := by
  intro g'
  rw [State.group_setGroup]
  split
  · exact hx
  · exact hs g'

/-- A predicate of one group record that holds of a FREE group and that every transition of a group keeps. -/
structure GroupLaw (Q : Group → Prop) : Prop where
  free : Q Group.free
  move : ∀ {x y : Group}, Q x → GroupMove x y → Q y

namespace GroupLaw

variable {Q : Group → Prop} (law : GroupLaw Q)
include law

theorem claim {s : State} (g : GroupId) (c : HoldCause) (hs : s.Groups Q) : (s.claim g c).Groups Q := by
  unfold State.claim
  dsimp only
  split
  next staging => exact hs.setGroup (law.move (hs g) (.claimStaging _ staging))
  next gap => exact hs.setGroup (law.move (hs g) (.claimGap _ gap))
  next holding => exact hs.setGroup (law.move (hs g) (.claimHolding _ holding))
  all_goals exact hs

theorem control : ControlLaw (State.Groups Q) where
  frame {s t} hs groups _ _ g := by
    show Q (t.groups.at g)
    rw [groups]
    exact hs g
  initial _ _ _ _ _ _ _ g := by
    simpa [State.initial, State.group, Table.at] using law.free
  move hs moved := hs.setGroup (law.move (hs _) moved)
  flag _ hs := hs
  latch {s} hs g := by
    rw [State.group_setLatch]
    exact law.claim g .stop hs g
  unlatch hs := hs
  clear {s} m hs := by
    obtain ⟨flags, eq⟩ := State.clearFlags_eq s m
    rw [eq]
    exact hs

theorem kept : Kept (State.Groups Q) := law.control.kept fun {s} hs g => by
  rw [State.group_countDown, Group.tick]
  split
  · exact law.move (hs g) (.timer _ _)
  · exact hs g

end GroupLaw

/-- A group in any state but HOLDING has no held-from and no causes. -/
theorem Group.Held.idle {x : Group} (h : x.Held) (ne : x.state ≠ .holding) : x.heldFrom = none ∧ x.causes = 0 :=
  ⟨Option.not_isSome_iff_eq_none.1 fun held => ne (h.1.1 held), h.2 ne⟩

theorem Group.held_of_idle {x : Group} (ne : x.state ≠ .holding) (idle : x.heldFrom = none ∧ x.causes = 0) :
    x.Held := ⟨by simp [idle.1, ne], fun _ => idle.2⟩

theorem Group.held_of_holding {x : Group} {f : HeldFrom} (holding : x.state = .holding) (from_ : x.heldFrom = some f) :
    x.Held := ⟨by simp [from_, holding], fun ne => absurd holding ne⟩

/-- Held-from and causes come and go with HOLDING alone (R110). -/
theorem groupLaw_held : GroupLaw Group.Held where
  free := Group.held_of_idle nofun ⟨rfl, rfl⟩
  move {x y} h moved := by
    have idle {st : GroupState} (state : x.state = st) (ne : st ≠ .holding) := h.idle (state ▸ ne)
    cases moved with
    | free => exact Group.held_of_idle nofun ⟨rfl, rfl⟩
    | formed => exact Group.held_of_idle nofun ⟨rfl, rfl⟩
    | timer => exact h
    | claimStaging => exact Group.held_of_holding rfl rfl
    | claimGap => exact Group.held_of_holding rfl rfl
    | claimHolding m holding => exact ⟨h.1, fun ne => absurd holding ne⟩
    | begin => exact h
    | firstStage n ready => exact Group.held_of_idle nofun (ready.elim (idle · nofun) (idle · nofun))
    | nextStage n ready => exact Group.held_of_idle nofun (ready.elim (idle · nofun) (idle · nofun))
    | last staging => exact Group.held_of_idle nofun (idle staging nofun)
    | gap staging => exact Group.held_of_idle nofun (idle staging nofun)
    | advance => exact h
    | amend => exact h
    | amendLast gap => exact Group.held_of_idle nofun (idle gap nofun)
    | resumeStaging => exact Group.held_of_idle nofun ⟨rfl, rfl⟩
    | resumeGap => exact Group.held_of_idle nofun ⟨rfl, rfl⟩

/-- The stages done count up to the stage count, and a stage is to come until the last is done (R120). -/
theorem groupLaw_stagesWithin : GroupLaw Group.StagesWithin where
  free _ h := nomatch h
  move {x y} h moved := by
    cases moved with
    | free => exact fun _ run => nomatch run
    | formed => exact fun _ run => nomatch run
    | timer => exact h
    | claimStaging m staging => exact fun r run => ⟨(h r run).1, fun _ => (h r run).2 (.inl staging)⟩
    | claimGap m gap => exact fun r run => ⟨(h r run).1, fun _ => (h r run).2 (.inr (.inl gap))⟩
    | claimHolding => exact h
    | begin ready more =>
      rintro r ⟨⟩
      exact ⟨more.le, fun _ => more⟩
    | firstStage n ready held more =>
      intro r run
      cases held.symm.trans run
      exact ⟨more.le, fun _ => more⟩
    | nextStage n ready =>
      exact fun r run => ⟨(h r run).1, fun _ => (h r run).2 (ready.elim (fun gap => .inr (.inl gap)) .inl)⟩
    | last staging held all =>
      rintro r ⟨⟩
      refine ⟨(h _ held).2 (.inl staging), fun moving => ?_⟩
      rcases moving with moving | moving | moving <;> cases moving
    | gap staging held more =>
      rintro r ⟨⟩
      have := (h _ held).2 (.inl staging)
      exact ⟨this, fun _ => lt_of_le_of_ne this more⟩
    | advance staging held more =>
      rintro r ⟨⟩
      have := (h _ held).2 (.inl staging)
      exact ⟨this, fun _ => lt_of_le_of_ne this more⟩
    | amend gap held done more =>
      rintro r ⟨⟩
      exact ⟨by omega, fun _ => by omega⟩
    | amendLast gap held last =>
      rintro r ⟨⟩
      refine ⟨by omega, fun moving => ?_⟩
      rcases moving with moving | moving | moving <;> cases moving
    | resumeStaging n holding => exact fun r run => ⟨(h r run).1, fun _ => (h r run).2 (.inr (.inr holding))⟩
    | resumeGap holding => exact fun r run => ⟨(h r run).1, fun _ => (h r run).2 (.inr (.inr holding))⟩

/-- Settles O9: both shapes are laws of one group record, which every step keeps. -/
theorem stepKeepsGroupRecordsInShape : Obligations.StepKeepsGroupRecordsInShape :=
  ⟨groupLaw_held.kept.step, groupLaw_stagesWithin.kept.step⟩

/-! ### The STOP flag with the latch (R154) -/

namespace State

variable {s : State}

/-- CLEAR-ATTENTION sets STOP again while the latch is set (R193). -/
theorem latchFlagged_clearFlags (hs : s.LatchFlagged) (mask : BitVec 32) : (s.clearFlags mask).LatchFlagged := by
  obtain ⟨flags, eq⟩ := clearFlags_eq s mask
  have stop : (s.clearFlags mask).stop = s.stop := by rw [eq]
  intro set
  rw [stop] at set
  rw [isSet_clearFlags, set, hs set]
  cases named : mask.getLsbD (Flag.bit .stop) with
  | false => rfl
  | true =>
    have : mask.getLsbD 0 = true := named
    simp [this]

theorem controlLaw_latchFlagged : ControlLaw State.LatchFlagged where
  frame {s t} hs _ stop flags set := by
    show t.attention.flags.getLsbD _ = true
    rw [flags]
    exact hs (stop ▸ set)
  initial _ _ _ _ _ _ _ _ := by
    show Attention.isSet ⟨1, 0, false⟩ .stop = true
    decide
  move hs _ := hs
  flag f hs set := isSet_raiseFlag_of_isSet _ (hs set) f
  latch _ _ := (isSet_setLatch_iff _ .stop).2 (.inr (.inl rfl))
  unlatch _ set := nomatch set
  clear m hs := latchFlagged_clearFlags hs m

end State

/-- Settles O6: the latch is set together with the flag, and what clears the flag while the latch is set sets it again. -/
theorem stepKeepsTheStopFlagWithTheLatch : Obligations.StepKeepsTheStopFlagWithTheLatch :=
  (State.controlLaw_latchFlagged.kept fun hs => hs).step

end Machine
end Sys2Proof
end

section

/-! Jogs, PLANNED points and groups in use need a plan that is COMPILED or IN_SERVICE (R30, R53, R56, R65, R112, R142). -/
namespace Sys2Proof.Machine

namespace State

variable {s t : State}

/-! ### What keeps it -/

/-- It is kept where the plan stands and no jog, no PLANNED point and no group in use is new. -/
theorem InServiceToMove.of (hs : s.InServiceToMove) (plan : t.plan.state = s.plan.state)
    (jog : t.jog.active.isSome → s.jog.active.isSome)
    (life : ∀ p, (t.point p).life = .planned → (s.point p).life = .planned)
    (groups : ∀ g, (t.group g).state ≠ .free → (s.group g).state ≠ .free) : t.InServiceToMove := by
  obtain ⟨jogs, planned, moving⟩ := hs
  have judging : t.judging = s.judging := by simp only [State.judging, plan]
  exact ⟨fun active => plan.trans (jogs (jog active)), fun p h => judging.trans (planned p (life p h)),
    fun g h => judging.trans (moving g (groups g h))⟩

/-- No jog, no PLANNED point and no group in use: such a state suits every plan. -/
structure Idle (s : State) : Prop where
  jog : s.jog.active = none
  unplanned : ∀ p, (s.point p).life ≠ .planned
  free : s.AllFree

theorem Idle.inServiceToMove (h : s.Idle) : s.InServiceToMove :=
  ⟨fun active => by simp [h.jog] at active, fun p planned => absurd planned (h.unplanned p),
    fun g used => absurd (h.free g) used⟩

/-- A state whose plan judges nothing is idle. -/
theorem InServiceToMove.idle (hs : s.InServiceToMove) (h : s.judging = false) : s.Idle := by
  obtain ⟨jogs, planned, moving⟩ := hs
  have notJudging : s.judging ≠ true := by simp [h]
  refine ⟨?_, fun p used => notJudging (planned p used), fun g => by_contra fun used => notJudging (moving g used)⟩
  by_contra active
  refine notJudging ?_
  simp [State.judging, jogs (Option.isSome_iff_ne_none.2 active)]

/-- A plan that judges suits PLANNED points and groups; in service it suits a jog too. -/
theorem inServiceToMove_of_judging (judging : t.judging = true)
    (jog : t.jog.active.isSome → t.plan.state = .inService) : t.InServiceToMove :=
  ⟨jog, fun _ _ => judging, fun _ _ => judging⟩

theorem inServiceToMove_of_inService (h : t.plan.state = .inService) : t.InServiceToMove :=
  inServiceToMove_of_judging (by simp [State.judging, h]) fun _ => h

theorem InServiceToMove.setPoint (hs : s.InServiceToMove) {p : PointId} {x : Point}
    (life : x.life = .planned → (s.point p).life = .planned) : (s.setPoint p x).InServiceToMove := by
  refine hs.of rfl id (fun q planned => ?_) fun _ => id
  rw [point_setPoint] at planned
  split at planned
  next e => exact e ▸ life planned
  · exact planned

theorem InServiceToMove.mapPoints (hs : s.InServiceToMove) {f : PointId → Point → Point}
    (life : ∀ p x, (f p x).life = .planned → x.life = .planned) : (s.mapPoints f).InServiceToMove := by
  refine hs.of rfl id (fun q planned => ?_) fun _ => id
  rw [point_mapPoints] at planned
  exact life q _ planned

theorem InServiceToMove.setGroup (hs : s.InServiceToMove) {g : GroupId} {x : Group}
    (used : x.state ≠ .free → (s.group g).state ≠ .free) : (s.setGroup g x).InServiceToMove := by
  refine hs.of rfl id (fun _ => id) fun g' moving => ?_
  rw [group_setGroup] at moving
  split at moving
  next e => exact e ▸ used moving
  · exact moving

theorem InServiceToMove.startStage (hs : s.InServiceToMove) {g : GroupId} (used : (s.group g).state ≠ .free) :
    (s.startStage g).InServiceToMove := by
  unfold State.startStage
  split
  · exact hs
  · refine InServiceToMove.setGroup (hs.mapPoints fun p x planned => ?_) fun _ => used
    split at planned <;> exact planned

theorem InServiceToMove.completeStage (hs : s.InServiceToMove) {g : GroupId} (used : (s.group g).state ≠ .free) :
    (s.completeStage g).InServiceToMove := by
  cases run : (s.group g).run with
  | none =>
    rw [completeStage_of_run_none run]
    exact hs
  | some r =>
    rw [completeStage_of_run run]
    split
    · exact hs.setGroup fun _ => used
    split
    · exact hs.setGroup fun _ => used
    · have advanced : InServiceToMove (s.setGroup g { s.group g with run := some r.advanced, timer := none }) :=
        hs.setGroup fun _ => used
      refine InServiceToMove.startStage (s := (s.setGroup g _).raiseFlag (.stage g)) advanced ?_
      show ((s.setGroup g _).group g).state ≠ _
      rw [group_setGroup_self]
      exact used

/-- No judgement starts a jog, plans a point or uses a FREE group. -/
theorem stable_inServiceToMove : Stable State.InServiceToMove where
  flag _ hs := hs
  claim {s} g c hs := by
    have judged := Judged.claim s g c
    refine hs.of (congrArg Plan.state judged.plan) ?_ (fun p planned => ?_) fun g' => mt ((Accumulates.claim s g c).free g')
    · obtain ⟨x, a, eq⟩ := claim_eq s g c
      rw [eq]
      exact id
    · rw [judged.points p] at planned
      exact planned
  skew _ _ hs := hs
  constraint _ _ _ hs := hs
  motion {s f} motion hs := hs.mapPoints fun p x planned => by
    rw [motion p x] at planned
    exact planned
  jogEnds _ _ hs := hs.of rfl (fun active => nomatch active) (fun _ => id) fun _ => id
  choices _ hs := hs
  completeStage staging hs := hs.completeStage (by rw [staging]; nofun)

/-- Where the plan is open to changes and every group is FREE, the plan may move to any state: its fall leaves no point
PLANNED (R53). -/
theorem InServiceToMove.planTo (hs : s.InServiceToMove) (open_ : s.PlanOpen) (free : s.AllFree) (st : PlanState) :
    (s.planTo st).Idle := by
  have jog : s.jog.active = none := by
    by_contra active
    exact open_.1 (hs.1 (Option.isSome_iff_ne_none.2 active))
  by_cases compiled : s.plan.state = .compiled
  · refine ⟨?_, fun p => ?_, ?_⟩
    · rw [planTo_eq]
      exact jog
    · rw [point_planTo_of_compiled s compiled]
      dsimp only [Point.fall]
      split
      · nofun
      next unplanned => exact unplanned
    · rw [planTo_eq]
      exact free
  · rw [planTo_of_not_compiled s compiled]
    refine ⟨jog, fun p planned => ?_, free⟩
    have := hs.2.1 p planned
    simp [State.judging, compiled, open_.1] at this

theorem InServiceToMove.draftIfCompiled (hs : s.InServiceToMove) (open_ : s.PlanOpen) (free : s.AllFree) :
    s.draftIfCompiled.InServiceToMove := by
  unfold State.draftIfCompiled
  split
  · exact (hs.planTo open_ free _).inServiceToMove
  · exact hs

/-- A plan that judges is in service once a run or a jog has begun (R54). -/
theorem inService_enterService (h : s.judging = true) : s.enterService.plan.state = .inService := by
  unfold enterService
  split
  · rfl
  next other =>
    simp only [State.judging, Bool.or_eq_true, beq_iff_eq] at h
    exact h.resolve_left other

/-! ### Lines and resumptions -/

theorem InServiceToMove.takeAssertion (hs : s.InServiceToMove) (l : LineId) : (s.takeAssertion l).InServiceToMove := by
  have stable := stable_inServiceToMove
  unfold State.takeAssertion
  dsimp only
  split
  · exact stable.endJog .stop (stable.claimAll .stop (s := { s with stop := true }) hs)
  · exact stable.claimAll _ hs
  · split
    · exact stable.claim _ _ hs
    · exact stable.claimAll _ hs
    · exact hs
  · split
    · split
      next may => exact hs.startStage (by rw [gap_of_mayContinue may]; nofun)
      · exact hs
    · exact hs
    · exact hs
  all_goals exact hs

theorem InServiceToMove.resumeFrom (hs : s.InServiceToMove) {g : GroupId} (holding : (s.group g).state = .holding) :
    (s.resumeFrom g).InServiceToMove := by
  have used : (s.group g).state ≠ .free := by rw [holding]; nofun
  unfold State.resumeFrom
  split
  · unfold State.resumeStage
    dsimp only
    have goes := stable_inServiceToMove.evalFollow g (hs.setGroup (g := g) (x := { s.group g with
      state := .staging, heldFrom := none, causes := 0
      timer := some (s.limits.stageTimeout * Config.usPerSecond) }) fun _ => used)
    split
    · refine goes.completeStage ?_
      rw [group_evalFollow, group_setGroup_self]
      nofun
    · exact goes
  · exact hs.setGroup fun _ => used
  · exact hs

/-! ### The changes -/

theorem idle_initial (pins : Table Level 12) (limits : Limits) (lock : Bool) (phase : Phase) (out : DataOut)
    (pending : List Instr) (choices : Nat) : (State.initial pins limits lock phase out pending choices).Idle := by
  refine ⟨rfl, fun p => ?_, fun g => ?_⟩
  · simp [State.initial, State.point, Table.at, Point.vacant]
  · simp [State.initial, State.group, Table.at, Group.free]

theorem life_unbind (x : Point) (a : Option Address) : ({ x.unbind with address := a } : Point).life = .draft := rfl

theorem unplanned_linkReset {x : Point} {l : LinkId} (h : (if x.onLink l then x.linkReset else x).life = .planned) :
    x.life = .planned := by
  split at h
  · unfold Point.linkReset at h
    split at h
    · cases h
    · exact h
  · exact h

theorem writeBody_open {b : BodyId} {x : Option Body} (hs : s.InServiceToMove) :
    (s.writeBody b x).InServiceToMove := by
  refine InServiceToMove.mapPoints (s := s.setBody b x) hs fun p y planned => ?_
  split at planned
  · exact planned
  · split at planned <;> exact planned

/-- A change of the body table leaves no point PLANNED (R9, R53). -/
theorem InServiceToMove.planAfterBodies (hs : s.InServiceToMove) (open_ : s.PlanOpen) (free : s.AllFree) (b : BodyId)
    (x : Option Body) : ((s.writeBody b x).planAfterBodies).InServiceToMove :=
  ((writeBody_open hs).planTo open_ free _).inServiceToMove

theorem inServiceToMove_change (hs : s.InServiceToMove) {u : State} (change : s.Change u) : u.InServiceToMove := by
  have stable := stable_inServiceToMove
  cases change with
  | partReset => exact (idle_initial s.pins s.limits s.limitsLock .running s.port.out s.pending s.choices).inServiceToMove
  | enrol => exact hs.setPoint nofun
  | rebind => exact hs.setPoint id
  | @retire p =>
    rw [retire_eq]
    exact hs.setPoint (p := p) (x := Point.vacant) nofun
  | recapture p => exact stable.evaluateIndex p (hs.setPoint id)
  | @readdress p a v =>
    obtain ⟨links, moved⟩ := readdress_eq s p a
    obtain ⟨f, inhibited⟩ := writeInhibit_eq (s.readdress p a) [p] v
    rw [inhibited, moved]
    refine InServiceToMove.mapPoints (stable.judgeSkewOf p ?_) fun _ _ => id
    exact hs.setPoint (p := p) (x := { (s.point p).unbind with address := some a }) nofun
  | amend set d v =>
    obtain ⟨f, inhibited⟩ := writeInhibit_eq (s.writeDerating set d) set v
    rw [inhibited]
    refine InServiceToMove.mapPoints ?_ fun _ _ => id
    cases d with
    | none => exact hs
    | some d =>
      refine stable.writeDerating (hs.mapPoints fun p x planned => ?_)
      split at planned <;> exact planned
  | define open_ free => exact stable.judgeSkew _ (hs.planAfterBodies open_ free _ _)
  | amendBody skew open_ free =>
    split
    · exact stable.judgeSkew _ (hs.planAfterBodies open_ free _ _)
    · exact hs.planAfterBodies open_ free _ _
  | retireBody b open_ free => exact stable.judgeSkew _ (hs.planAfterBodies open_ free _ _)
  | addCustom c t l w open_ free => exact InServiceToMove.draftIfCompiled (s := s.setConstraint _ _) hs open_ free
  | amendFields =>
    split
    · exact stable.evaluate _ hs
    · exact hs
  | retireConstraint c open_ free => exact InServiceToMove.draftIfCompiled (s := s.setConstraint _ _) hs open_ free
  | beginCompile open_ free =>
    obtain ⟨jog, unplanned, free⟩ := hs.planTo open_ free .compiling
    exact Idle.inServiceToMove ⟨jog, unplanned, free⟩
  | compileSucceeds compiling built =>
    have idle := hs.idle (by simp [State.judging, compiling])
    obtain ⟨constraints, f, rfl⟩ := build_eq built
    refine stable.flag .plan (stable.evaluateAll (inServiceToMove_of_judging rfl fun active => ?_))
    exact absurd (idle.jog) (Option.isSome_iff_ne_none.1 active)
  | compileFails f compiling =>
    obtain ⟨jog, unplanned, free⟩ := hs.idle (by simp [State.judging, compiling])
    exact Idle.inServiceToMove ⟨jog, unplanned, free⟩
  | form bs free judging => exact inServiceToMove_of_judging judging hs.1
  | @beginRun g o ready =>
    refine inServiceToMove_of_inService (inService_enterService ?_)
    rw [(Judged.startStage _ g).judging]
    exact hs.2.2 g (by rcases ready with e | e <;> rw [e] <;> nofun)
  | startStage gap => exact hs.startStage (by rw [gap]; nofun)
  | amendRun o gap =>
    unfold State.amendRun
    split
    · exact hs
    · dsimp only
      split <;> exact hs.setGroup fun _ => by rw [gap]; nofun
  | claim g c => exact stable.claim g c hs
  | resume holding => exact hs.resumeFrom holding
  | disband g =>
    refine InServiceToMove.setGroup (s := State.mapPoints (s.mapBodies _) _) ?_ (fun used => absurd rfl used)
    refine InServiceToMove.mapPoints (s := s.mapBodies _) hs fun p x planned => ?_
    split at planned <;> exact planned
  | expireStage staging => exact stable.claim _ _ (hs.setGroup fun _ => by rw [staging]; nofun)
  | @beginJog p d planned => exact inServiceToMove_of_inService (inService_enterService (hs.2.1 p planned))
  | endJog o => exact stable.endJog o hs
  | setLatch => exact stable.endJog .stop (stable.claimAll .stop (s := { s with stop := true }) hs)
  | clearLatch => exact hs
  | rewriteLine l =>
    unfold rewriteLine
    dsimp only
    split
    · exact InServiceToMove.takeAssertion (s := s.setLine l _) hs l
    · exact hs
  | output => exact hs
  | acceptLevel pins l v =>
    unfold acceptLevel takeRelease
    dsimp only
    split
    · exact InServiceToMove.takeAssertion (s := State.setLine { s with pins := pins } l _) hs l
    split
    · split <;> exact hs
    · exact hs
  | resetLink l open_ free =>
    obtain ⟨unbound, eq⟩ := resetLink_eq s l
    rw [eq]
    refine Stable.foldl (fun p => stable.judgeSkewOf p) unbound ?_
    have reset := hs.mapPoints (f := fun _ x => if x.onLink l then x.linkReset else x) fun _ _ => unplanned_linkReset
    split
    next carries =>
      exact (InServiceToMove.planTo (s := (s.mapPoints _).setEngine l _) reset open_ (free carries) _).inServiceToMove
    · exact reset
  | clearFlags m =>
    obtain ⟨flags, eq⟩ := clearFlags_eq s m
    rw [eq]
    exact hs
  | enables => exact hs
  | limits => exact hs
  | missReply l p =>
    have missed (n : Nat) := InServiceToMove.setPoint (s := s.endSlot l) hs
      (p := p) (x := { (s.endSlot l).point p with missed := n }) id
    obtain ⟨n, eq | eq | eq⟩ := missReply_cases (s.endSlot l) l p
    · rw [eq]
      exact missed n
    · rw [eq]
      exact missed n
    · rw [eq]
      exact stable.lose (InServiceToMove.setPoint (missed n) id)
  | @noAnswer l p => exact InServiceToMove.setPoint (s := s.endSlot l) hs id
  | report l p permit f =>
    refine stable.handOn p permit ?_
    obtain eq | eq | eq := storeReport_cases (s.endSlot l) l p f
    all_goals
      rw [eq]
      exact InServiceToMove.setPoint (s := s.endSlot l) hs id
  | @bindAnnounced l p => exact InServiceToMove.setPoint (s := s.endSlot l) hs nofun

theorem inServiceToMove_quiet (hs : s.InServiceToMove) {u : State} (quiet : s.Quiet u) : u.InServiceToMove := by
  cases quiet with
  | none => exact hs
  | selector => exact hs
  | lock => exact hs
  | releasePlan inService idle =>
    exact inServiceToMove_of_judging rfl fun active => absurd idle (Option.isSome_iff_ne_none.1 active)
  | powerOn => exact (idle_initial _ _ _ _ _ _ _).inServiceToMove
  | phase => exact hs
  | endWait =>
    unfold State.endWait
    split <;> exact hs
  | sendPoll l =>
    obtain ⟨e, eq⟩ := sendPoll_eq s l
    exact eq ▸ hs
  | sendProbe l =>
    obtain ⟨e, eq⟩ := sendProbe_eq s l
    exact eq ▸ hs
  | sendAllStop l =>
    obtain ⟨e, eq⟩ := sendAllStop_eq s l
    exact eq ▸ hs
  | endSlot => exact hs
  | startBreak l =>
    obtain ⟨e, eq⟩ := startBreak_eq s l
    exact eq ▸ hs
  | endBreak l =>
    obtain ⟨e, eq⟩ | ⟨e, eq⟩ := endBreak_eq s l
    · exact eq ▸ hs
    · rw [eq]
      exact InServiceToMove.mapPoints (s := s.setEngine l e) hs fun _ _ => id
  | pins => exact hs
  | debounce => exact hs

theorem kept_inServiceToMove : Kept State.InServiceToMove where
  pending _ hs := hs
  countDown {s} hs := by
    refine hs.of rfl (fun active => ?_) (fun _ => id) fun g used => ?_
    · have : (s.jog.active.map fun j => { j with timer := j.timer - 1 }).isSome := active
      rwa [Option.isSome_map] at this
    · rwa [group_countDown, Group.state_tick] at used
  change hs change := by
    refine (inServiceToMove_change hs change).of rfl id (fun p planned => ?_) fun _ => id
    rwa [point_settle] at planned
  quiet hs quiet := inServiceToMove_quiet hs quiet

end State

/-- Settles O8: what starts a jog, plans a point or uses a group finds a judged plan, and a plan that stops judging finds none
of them. -/
theorem stepKeepsJogsAndPlannedPointsToThePlan : Obligations.StepKeepsJogsAndPlannedPointsToThePlan :=
  State.kept_inServiceToMove.step

end Sys2Proof.Machine
end

section

/-! Bodies and the points under their corners name one another, and no two bodies stand at one position (R2, R3). -/
namespace Sys2Proof.Machine

namespace State

variable {s t : State}

/-! ### What keeps it -/

/-- It is kept where bodies keep corners and positions, points their seats, and no point becomes VACANT. -/
theorem SeatsMatch.of (hs : s.SeatsMatch) (bodies : ∀ b, (t.body b).map (fun x => (x.corner, x.position)) =
      (s.body b).map fun x => (x.corner, x.position))
    (seats : ∀ p, (t.point p).seat = (s.point p).seat)
    (life : ∀ p, (t.point p).life = .vacant → (s.point p).life = .vacant) : t.SeatsMatch := by
  obtain ⟨corners, named, vacant, apart⟩ := hs
  have from_ {b : BodyId} {x : Body} (h : t.body b = some x) :
      ∃ y, s.body b = some y ∧ y.corner = x.corner ∧ y.position = x.position := by
    have := bodies b
    rw [h] at this
    obtain ⟨y, hy, eq⟩ := Option.map_eq_some_iff.1 this.symm
    exact ⟨y, hy, congrArg Prod.fst eq, congrArg Prod.snd eq⟩
  have into {b : BodyId} {y : Body} (h : s.body b = some y) : ∃ x, t.body b = some x ∧ y.corner = x.corner := by
    have := bodies b
    rw [h] at this
    obtain ⟨x, hx, eq⟩ := Option.map_eq_some_iff.1 this
    exact ⟨x, hx, (congrArg Prod.fst eq).symm⟩
  refine ⟨fun b x c h => ?_, fun p w h => ?_, fun p h => ?_, fun b c x y hx hy same => ?_⟩
  · obtain ⟨y, hy, corner, _⟩ := from_ h
    rw [seats, ← corner]
    exact corners b y c hy
  · rw [seats] at h
    obtain ⟨y, hy, at_⟩ := named p w h
    obtain ⟨x, hx, corner⟩ := into hy
    exact ⟨x, hx, corner ▸ at_⟩
  · rw [seats]
    exact vacant p (life p h)
  · obtain ⟨x', hx', _, px⟩ := from_ hx
    obtain ⟨y', hy', _, py⟩ := from_ hy
    exact apart b c x' y' hx' hy' (px.trans (same.trans py.symm))

theorem SeatsMatch.of_points (hs : s.SeatsMatch) (bodies : t.bodies = s.bodies)
    (seats : ∀ p, (t.point p).seat = (s.point p).seat)
    (life : ∀ p, (t.point p).life = .vacant → (s.point p).life = .vacant) : t.SeatsMatch :=
  hs.of (fun b => by simp only [State.body, bodies]) seats life

theorem SeatsMatch.mapPoints (hs : s.SeatsMatch) {f : PointId → Point → Point} (seats : ∀ p x, (f p x).seat = x.seat)
    (life : ∀ p x, (f p x).life = .vacant → x.life = .vacant) : (s.mapPoints f).SeatsMatch := by
  refine hs.of_points rfl (fun p => ?_) fun p h => ?_
  · rw [point_mapPoints]
    exact seats p _
  · rw [point_mapPoints] at h
    exact life p _ h

theorem SeatsMatch.setPoint (hs : s.SeatsMatch) {p : PointId} {x : Point} (seat : x.seat = (s.point p).seat)
    (life : x.life = .vacant → (s.point p).life = .vacant) : (s.setPoint p x).SeatsMatch := by
  refine hs.of_points rfl (fun q => ?_) fun q h => ?_
  · rw [point_setPoint]
    split
    next e => exact e ▸ seat
    · rfl
  · rw [point_setPoint] at h
    split at h
    next e => exact e ▸ life h
    · exact h

/-- A point that stands in no body may change its life: it is named by none. -/
theorem SeatsMatch.setPoint_unseated (hs : s.SeatsMatch) {p : PointId} {x : Point} (was : (s.point p).seat = none)
    (seat : x.seat = none) : (s.setPoint p x).SeatsMatch := by
  obtain ⟨corners, named, vacant, apart⟩ := hs
  have seats (q : PointId) : ((s.setPoint p x).point q).seat = (s.point q).seat := by
    rw [point_setPoint]
    split
    next e => exact e ▸ seat.trans was.symm
    · rfl
  refine ⟨fun b y c h => (seats _).trans (corners b y c h), fun q w h => named q w ((seats q).symm.trans h),
    fun q h => ?_, apart⟩
  rw [seats]
  by_cases e : p = q
  · exact e ▸ was
  · rw [point_setPoint_of_ne s e] at h
    exact vacant q h

/-- No judgement writes a body, a seat or a life. -/
theorem SeatsMatch.judged (hs : s.SeatsMatch) (judged : s.Judged t) : t.SeatsMatch :=
  hs.of_points judged.bodies (fun p => by rw [judged.points p]) fun p h => by
    rw [judged.points p] at h
    exact h

theorem stable_seatsMatch : Stable State.SeatsMatch := stable_of_judged fun judged hs => hs.judged judged

theorem SeatsMatch.planTo (hs : s.SeatsMatch) (st : PlanState) : (s.planTo st).SeatsMatch := by
  by_cases compiled : s.plan.state = .compiled
  · refine hs.of_points (by rw [planTo_eq]) (fun p => ?_) fun p h => ?_
    · rw [point_planTo_of_compiled s compiled]
      rfl
    · rw [point_planTo_of_compiled s compiled] at h
      dsimp only [Point.fall] at h
      split at h
      · cases h
      · exact h
  · rw [planTo_of_not_compiled s compiled]
    exact hs

theorem SeatsMatch.enterService (hs : s.SeatsMatch) : s.enterService.SeatsMatch := by
  rw [enterService_eq]
  exact hs

theorem SeatsMatch.draftIfCompiled (hs : s.SeatsMatch) : s.draftIfCompiled.SeatsMatch := by
  unfold State.draftIfCompiled
  split
  · exact hs.planTo _
  · exact hs

/-! ### Writing a body record with its points (R3) -/

theorem life_writeBody (s : State) (b : BodyId) (x : Option Body) (p : PointId) :
    ((s.writeBody b x).point p).life = (s.point p).life := by
  show (((s.setBody b x).seatBody b x).point p).life = _
  unfold seatBody
  rw [point_mapPoints]
  split
  · rfl
  · split <;> rfl

theorem body_writeBody (s : State) (b c : BodyId) (x : Option Body) :
    (s.writeBody b x).body c = if b = c then x else s.body c := Table.at_put _ _ _ _

theorem mem_corners_iff (x : Body) (p : PointId) : p ∈ x.corners ↔ ∃ c, x.corner c = p := by
  constructor
  · intro h
    simp only [Body.corners, List.mem_cons, List.not_mem_nil, or_false] at h
    obtain rfl | rfl | rfl | rfl := h
    exacts [⟨.ll, rfl⟩, ⟨.lr, rfl⟩, ⟨.tl, rfl⟩, ⟨.tr, rfl⟩]
  · rintro ⟨c, rfl⟩
    cases c <;> simp [Body.corners, Body.corner]

/-- The seat of a point that is no corner of the record written: it leaves the body if it named it. -/
theorem seat_writeBody_of_not_corner (s : State) (b : BodyId) (x : Option Body) (p : PointId)
    (h : ∀ r, x = some r → p ∉ r.corners) :
    ((s.writeBody b x).point p).seat = if (s.point p).seat.any (·.body == b) then none else (s.point p).seat := by
  rw [point_writeBody_of_not_corner s b x p h]
  split <;> rfl

/-- A body record written over the one held, if any: its corners are those of the held one or points of no body, and its
position is free (R2, R3, R10, R12). -/
theorem SeatsMatch.writeBody (hs : s.SeatsMatch) {b : BodyId} {y : Body} {old : List PointId}
    (held : ∀ p ∈ old, ∃ c, (s.point p).seat = some ⟨b, c⟩) (enters : s.Enters old y) (alone : s.AloneAt b y.position) :
    (s.writeBody b (some y)).SeatsMatch := by
  obtain ⟨corners, named, vacant, apart⟩ := hs
  have others {c : BodyId} (ne : b ≠ c) : (s.writeBody b (some y)).body c = s.body c := by
    rw [body_writeBody, if_neg ne]
  have this_ : (s.writeBody b (some y)).body b = some y := by rw [body_writeBody, if_pos rfl]
  have notCorner {p : PointId} (h : p ∉ y.corners) :
      ((s.writeBody b (some y)).point p).seat = if (s.point p).seat.any (·.body == b) then none else (s.point p).seat :=
    seat_writeBody_of_not_corner s b (some y) p fun r e => by cases e; exact h
  have corner (c : Corner) : ((s.writeBody b (some y)).point (y.corner c)).seat = some ⟨b, c⟩ := by
    rw [point_writeBody_corner s b y enters.distinct]
  have seated {p : PointId} (h : p ∈ y.corners) : (s.point p).life ≠ .vacant
      ∧ ∀ w, (s.point p).seat = some w → w.body = b := by
    obtain was | ⟨live, free⟩ := enters.enterable p h
    · obtain ⟨c, seat⟩ := held p was
      exact ⟨fun none_ => by simp [vacant p none_] at seat, fun w at_ => by cases seat.symm.trans at_; rfl⟩
    · exact ⟨live, fun w at_ => by simp [free] at at_⟩
  refine ⟨fun c x k h => ?_, fun p w h => ?_, fun p h => ?_, fun c d x z hx hz same => ?_⟩
  · by_cases e : b = c
    · subst e
      cases this_.symm.trans h
      exact corner k
    · rw [others e] at h
      have seat := corners c x k h
      have out : x.corner k ∉ y.corners := fun inside => e ((seated inside).2 _ seat).symm
      rw [notCorner out, seat]
      simp [Ne.symm e]
  · by_cases inside : p ∈ y.corners
    · obtain ⟨c, rfl⟩ := (mem_corners_iff y p).1 inside
      cases (corner c).symm.trans h
      exact ⟨y, this_, rfl⟩
    · rw [notCorner inside] at h
      split at h
      · cases h
      next other =>
        obtain ⟨x, hx, at_⟩ := named p w h
        refine ⟨x, ?_, at_⟩
        rw [others fun e => other (by simp [h, e]), hx]
  · rw [life_writeBody] at h
    have out : p ∉ y.corners := fun inside => (seated inside).1 h
    rw [notCorner out, vacant p h]
    rfl
  · by_cases e : b = c
    · by_cases e' : b = d
      · exact e.symm.trans e'
      · subst e
        cases this_.symm.trans hx
        rw [others e'] at hz
        exact (alone d z hz same.symm).symm
    · rw [others e] at hx
      by_cases e' : b = d
      · subst e'
        cases this_.symm.trans hz
        exact alone c x hx same
      · rw [others e'] at hz
        exact apart c d x z hx hz same

/-- A body record removed: the points that named it name none (R3, R16). -/
theorem SeatsMatch.writeBody_none (hs : s.SeatsMatch) (b : BodyId) : (s.writeBody b none).SeatsMatch := by
  obtain ⟨corners, named, vacant, apart⟩ := hs
  have seat (p : PointId) : ((s.writeBody b none).point p).seat =
      if (s.point p).seat.any (·.body == b) then none else (s.point p).seat :=
    seat_writeBody_of_not_corner s b none p nofun
  have others {c : BodyId} {x : Body} (h : (s.writeBody b none).body c = some x) : b ≠ c ∧ s.body c = some x := by
    rw [body_writeBody] at h
    split at h
    · cases h
    next ne => exact ⟨ne, h⟩
  refine ⟨fun c x k h => ?_, fun p w h => ?_, fun p h => ?_, fun c d x z hx hz same => ?_⟩
  · obtain ⟨ne, h⟩ := others h
    rw [seat, corners c x k h]
    simp [Ne.symm ne]
  · rw [seat] at h
    split at h
    · cases h
    next other =>
      obtain ⟨x, hx, at_⟩ := named p w h
      refine ⟨x, ?_, at_⟩
      rw [body_writeBody, if_neg fun e => other (by simp [h, e]), hx]
  · rw [life_writeBody] at h
    rw [seat, vacant p h]
    rfl
  · exact apart c d x z (others hx).2 (others hz).2 same

/-! ### The changes -/

theorem seatsMatch_initial (pins : Table Level 12) (limits : Limits) (lock : Bool) (phase : Phase) (out : DataOut)
    (pending : List Instr) (choices : Nat) : (State.initial pins limits lock phase out pending choices).SeatsMatch := by
  have empty (b : BodyId) : (State.initial pins limits lock phase out pending choices).body b = none := by
    simp [State.initial, State.body, Table.at]
  have vacant (p : PointId) : (State.initial pins limits lock phase out pending choices).point p = Point.vacant := by
    simp [State.initial, State.point, Table.at]
  refine ⟨fun b x c h => ?_, fun p w h => ?_, fun p _ => ?_, fun b c x y h => ?_⟩
  · cases (empty b).symm.trans h
  · rw [vacant] at h
    cases h
  · rw [vacant]
    rfl
  · cases (empty b).symm.trans h

theorem seatsMatch_takeAssertion (hs : s.SeatsMatch) (l : LineId) : (s.takeAssertion l).SeatsMatch := by
  have stable := stable_seatsMatch
  unfold takeAssertion
  dsimp only
  split
  · exact stable.endJog .stop (stable.claimAll .stop (s := { s with stop := true }) hs)
  · exact stable.claimAll _ hs
  · split
    · exact stable.claim _ _ hs
    · exact stable.claimAll _ hs
    · exact hs
  · split
    · split
      · exact hs.judged (Judged.startStage s _)
      · exact hs
    · exact hs
    · exact hs
  all_goals exact hs

theorem seatsMatch_resumeFrom (hs : s.SeatsMatch) (g : GroupId) : (s.resumeFrom g).SeatsMatch := by
  unfold resumeFrom resumeStage
  dsimp only
  split
  · split
    · exact (SeatsMatch.judged (s := s.setGroup g _) hs (Judged.evalFollow _ g)).judged (Judged.completeStage _ g)
    · exact SeatsMatch.judged (s := s.setGroup g _) hs (Judged.evalFollow _ g)
  · exact hs
  · exact hs

/-- A group of bodies and points forms or is disbanded: seats and corners stand (R115, R137). -/
theorem SeatsMatch.regroup (hs : s.SeatsMatch) (f : BodyId → Body → Body) (h : PointId → Point → Point)
    (corners : ∀ b x, (f b x).corner = x.corner ∧ (f b x).position = x.position)
    (seats : ∀ p x, (h p x).seat = x.seat) (life : ∀ p x, (h p x).life = x.life) :
    ((s.mapBodies f).mapPoints h).SeatsMatch := by
  refine SeatsMatch.mapPoints (s := s.mapBodies f) ?_ seats fun p x => (life p x ▸ id)
  refine hs.of (fun b => ?_) (fun _ => rfl) fun _ => id
  rw [body_mapBodies, Option.map_map]
  exact congrFun (congrArg Option.map (funext fun x => Prod.ext (corners b x).1 (corners b x).2)) _

theorem seat_linkReset (x : Point) : x.linkReset.seat = x.seat := by
  unfold Point.linkReset
  split <;> rfl

theorem not_vacant_linkReset {x : Point} (h : x.linkReset.life = .vacant) : x.life = .vacant := by
  unfold Point.linkReset at h
  split at h
  · cases h
  · exact h

theorem seatsMatch_change (hs : s.SeatsMatch) {u : State} (change : s.Change u) : u.SeatsMatch := by
  have stable := stable_seatsMatch
  cases change with
  | partReset => exact seatsMatch_initial s.pins s.limits s.limitsLock .running s.port.out s.pending s.choices
  | enrol vacant => exact hs.setPoint_unseated (hs.2.2.1 _ vacant) rfl
  | rebind => exact hs.setPoint rfl id
  | @retire p enrolled unseated =>
    rw [retire_eq]
    exact hs.setPoint_unseated (p := p) (x := Point.vacant) unseated rfl
  | recapture p => exact stable.evaluateIndex p (hs.setPoint rfl id)
  | @readdress p a v =>
    obtain ⟨links, moved⟩ := readdress_eq s p a
    obtain ⟨f, inhibited⟩ := writeInhibit_eq (s.readdress p a) [p] v
    rw [inhibited, moved]
    refine SeatsMatch.mapPoints (stable.judgeSkewOf p ?_) (fun _ _ => rfl) fun _ _ => id
    exact hs.setPoint (p := p) (x := { (s.point p).unbind with address := some a }) rfl nofun
  | amend set d v =>
    obtain ⟨f, inhibited⟩ := writeInhibit_eq (s.writeDerating set d) set v
    rw [inhibited]
    refine SeatsMatch.mapPoints ?_ (fun _ _ => rfl) fun _ _ => id
    cases d with
    | none => exact hs
    | some d =>
      refine stable.writeDerating (hs.mapPoints (fun p x => ?_) fun p x vacant => ?_)
      · split <;> rfl
      · split at vacant <;> exact vacant
  | define open_ free empty enters alone =>
    exact stable.judgeSkew _ ((hs.writeBody (old := []) (fun _ h => nomatch h) enters alone).planTo _)
  | @amendBody b x y skew open_ free held enters alone =>
    have written := SeatsMatch.planTo (hs.writeBody (b := b) (fun p hp => by
      obtain ⟨c, rfl⟩ := (mem_corners_iff x p).1 hp
      exact ⟨c, hs.1 b x c held⟩) enters alone) (if (s.writeBody b (some y)).anyBody then .drafted else .empty)
    split
    · exact stable.judgeSkew _ written
    · exact written
  | retireBody b => exact stable.judgeSkew _ ((hs.writeBody_none b).planTo _)
  | addCustom => exact SeatsMatch.draftIfCompiled (s := s.setConstraint _ _) hs
  | amendFields =>
    split
    · exact stable.evaluate _ hs
    · exact hs
  | retireConstraint => exact SeatsMatch.draftIfCompiled (s := s.setConstraint _ _) hs
  | beginCompile => exact hs.planTo .compiling
  | compileSucceeds compiling built =>
    obtain ⟨constraints, f, rfl⟩ := build_eq built
    have indexed : SeatsMatch (State.mapPoints { s with constraints := constraints }
        fun p x => { x with index := f p x }) :=
      SeatsMatch.mapPoints (s := { s with constraints := constraints }) hs (fun _ _ => rfl) fun _ _ => id
    refine stable.flag .plan (stable.evaluateAll ?_)
    refine SeatsMatch.mapPoints (f := fun _ x => if x.life = .bound ∧ x.seat.isSome then { x with life := .planned } else x)
      indexed (fun p x => ?_) fun p x vacant => ?_
    · split <;> rfl
    · split at vacant
      · cases vacant
      · exact vacant
  | compileFails => exact hs
  | @form g bs =>
    refine hs.regroup _ _ (fun b x => ?_) (fun p x => ?_) fun p x => ?_
    all_goals split <;> try exact ⟨rfl, rfl⟩
    all_goals rfl
  | @beginRun g o =>
    refine SeatsMatch.enterService (SeatsMatch.judged (s := (s.mapPoints _).setGroup g _) ?_ (Judged.startStage _ g))
    refine hs.mapPoints (fun p x => ?_) fun p x vacant => ?_
    · split <;> rfl
    · split at vacant <;> exact vacant
  | @startStage g => exact hs.judged (Judged.startStage s g)
  | amendRun o gap =>
    unfold State.amendRun
    split
    · exact hs
    · dsimp only
      split <;> exact hs
  | claim g c => exact stable.claim g c hs
  | resume => exact seatsMatch_resumeFrom hs _
  | disband g =>
    refine hs.regroup _ _ (fun b x => ?_) (fun p x => ?_) fun p x => ?_
    all_goals split <;> try exact ⟨rfl, rfl⟩
    all_goals rfl
  | expireStage => exact stable.claim (s := s.setGroup _ _) _ _ hs
  | beginJog => exact SeatsMatch.enterService (hs.setPoint rfl id)
  | endJog o => exact stable.endJog o hs
  | setLatch => exact stable.endJog .stop (stable.claimAll .stop (s := { s with stop := true }) hs)
  | clearLatch => exact hs
  | rewriteLine l =>
    unfold rewriteLine
    dsimp only
    split
    · exact seatsMatch_takeAssertion (s := s.setLine l _) hs l
    · exact hs
  | output => exact hs
  | acceptLevel pins l v =>
    unfold acceptLevel takeRelease
    dsimp only
    split
    · exact seatsMatch_takeAssertion (s := State.setLine { s with pins := pins } l _) hs l
    split
    · split <;> exact hs
    · exact hs
  | resetLink l =>
    obtain ⟨unbound, eq⟩ := resetLink_eq s l
    rw [eq]
    refine Stable.foldl (fun p => stable.judgeSkewOf p) unbound ?_
    have reset : SeatsMatch ((s.mapPoints fun _ x => if x.onLink l then x.linkReset else x).setEngine l
        (s.engine l).reset) := by
      refine hs.mapPoints (fun p x => ?_) fun p x vacant => ?_
      · split
        · exact seat_linkReset x
        · rfl
      · split at vacant
        · exact not_vacant_linkReset vacant
        · exact vacant
    split
    · exact reset.planTo _
    · exact reset
  | clearFlags m =>
    obtain ⟨flags, eq⟩ := clearFlags_eq s m
    rw [eq]
    exact hs
  | enables => exact hs
  | limits => exact hs
  | missReply l p =>
    have missed (n : Nat) := SeatsMatch.setPoint (s := s.endSlot l) hs
      (p := p) (x := { (s.endSlot l).point p with missed := n }) rfl id
    obtain ⟨n, eq | eq | eq⟩ := missReply_cases (s.endSlot l) l p
    · rw [eq]
      exact missed n
    · rw [eq]
      exact missed n
    · rw [eq]
      exact stable.lose (SeatsMatch.setPoint (missed n) rfl id)
  | noAnswer => exact SeatsMatch.setPoint (s := s.endSlot _) hs rfl id
  | report l p permit f =>
    refine stable.handOn p permit ?_
    obtain eq | eq | eq := storeReport_cases (s.endSlot l) l p f
    all_goals
      rw [eq]
      exact SeatsMatch.setPoint (s := s.endSlot l) hs rfl id
  | bindAnnounced => exact SeatsMatch.setPoint (s := s.endSlot _) hs rfl nofun

theorem seatsMatch_quiet (hs : s.SeatsMatch) {u : State} (quiet : s.Quiet u) : u.SeatsMatch := by
  cases quiet with
  | none => exact hs
  | selector => exact hs
  | lock => exact hs
  | releasePlan => exact hs
  | powerOn => exact seatsMatch_initial _ _ _ _ _ _ _
  | phase => exact hs
  | endWait =>
    unfold State.endWait
    split <;> exact hs
  | sendPoll l =>
    obtain ⟨e, eq⟩ := sendPoll_eq s l
    exact eq ▸ hs
  | sendProbe l =>
    obtain ⟨e, eq⟩ := sendProbe_eq s l
    exact eq ▸ hs
  | sendAllStop l =>
    obtain ⟨e, eq⟩ := sendAllStop_eq s l
    exact eq ▸ hs
  | endSlot => exact hs
  | startBreak l =>
    obtain ⟨e, eq⟩ := startBreak_eq s l
    exact eq ▸ hs
  | endBreak l =>
    obtain ⟨e, eq⟩ | ⟨e, eq⟩ := endBreak_eq s l
    · exact eq ▸ hs
    · rw [eq]
      exact SeatsMatch.mapPoints (s := s.setEngine l e) hs (fun _ _ => rfl) fun _ _ => id
  | pins => exact hs
  | debounce => exact hs

theorem kept_seatsMatch : Kept State.SeatsMatch where
  pending _ hs := hs
  countDown hs := hs
  change hs change := (seatsMatch_change hs change).of_points rfl (fun p => by rw [point_settle]) fun p vacant => by
    rwa [point_settle] at vacant
  quiet hs quiet := seatsMatch_quiet hs quiet

end State

/-- Settles O10: a body record is written together with the seats of its points, and only over its own or free ones. -/
theorem stepKeepsBodiesAndCornersMatched : Obligations.StepKeepsBodiesAndCornersMatched := State.kept_seatsMatch.step

end Sys2Proof.Machine
end

section

/-! Column addresses (R24), and each link's roster, queue and exchange (R74, R83, R84, R85): what an engine must match in the
points, said for one engine and a table of points, and what keeps it. -/
namespace Sys2Proof.Machine

/-- What a link engine must match in the points of its link (R74, R83, R84, R85). -/
structure Engine.Matches (pts : PointId → Point) (l : LinkId) (e : Engine) : Prop where
  ascending : e.roster.Pairwise fun a b => a.node < b.node
  listed : ∀ r ∈ e.roster, (pts r.point).isBound = true ∧ (pts r.point).address = some ⟨l, r.node⟩
  complete : ∀ p, (pts p).isBound = true → (pts p).onLink l = true → ∃ r ∈ e.roster, r.point = p
  once : e.queue.Nodup
  queued : ∀ p ∈ e.queue, (pts p).life = .draft ∧ (pts p).bindOutcome = .pending ∧ (pts p).onLink l = true
  credited : match e.exchange with
    | some (.poll p n _ _ _ false) => (pts p).isBound = true ∧ (pts p).address = some ⟨l, n⟩
    | some (.probe p n false) => e.queue.head? = some p ∧ (pts p).address = some ⟨l, n⟩
    | _ => True

namespace State

theorem rostersMatch_iff (s : State) :
    s.RostersMatch ↔ s.AddressesUnique ∧ (∀ p, (s.point p).life ≠ .vacant → (s.point p).address.isSome)
      ∧ ∀ l, (s.engine l).Matches s.point l :=
  ⟨fun ⟨unique, placed, links⟩ => ⟨unique, placed, fun l =>
      let ⟨a, b, c, d, e, f⟩ := links l
      ⟨a, b, c, d, e, f⟩⟩,
    fun ⟨unique, placed, links⟩ => ⟨unique, placed, fun l =>
      let ⟨a, b, c, d, e, f⟩ := links l
      ⟨a, b, c, d, e, f⟩⟩⟩

end State

/-! ### Points -/

/-- A point record that no roster, queue or exchange tells from another: its address, whether it is BOUND or PLANNED, whether
it is VACANT, and a DRAFT point's PENDING. -/
structure Point.Keeps (x y : Point) : Prop where
  address : y.address = x.address
  bound : y.isBound = x.isBound
  vacant : y.life = .vacant ↔ x.life = .vacant
  pending : x.bindOutcome = .pending → y.bindOutcome = .pending

theorem Point.Keeps.refl (x : Point) : x.Keeps x := ⟨rfl, rfl, Iff.rfl, id⟩

theorem Point.isBound_iff {x : Point} : x.isBound = true ↔ x.life = .bound ∨ x.life = .planned := by
  simp [Point.isBound]

theorem Point.draft_iff {x : Point} : x.life = .draft ↔ x.isBound = false ∧ x.life ≠ .vacant := by
  unfold Point.isBound
  cases x.life <;> decide

theorem Point.onLink_iff {x : Point} {l : LinkId} :
    x.onLink l = true ↔ x.life ≠ .vacant ∧ ∃ n, x.address = some ⟨l, n⟩ := by
  unfold Point.onLink
  cases x.address with
  | none => simp
  | some a =>
    obtain ⟨m, n⟩ := a
    simp

theorem Point.not_vacant_of_isBound {x : Point} (h : x.isBound = true) : x.life ≠ .vacant := by
  rcases Point.isBound_iff.1 h with e | e <;> rw [e] <;> nofun

theorem Point.Keeps.draft {x y : Point} (h : x.Keeps y) : y.life = .draft ↔ x.life = .draft := by
  rw [Point.draft_iff, Point.draft_iff, h.bound, ne_eq, not_congr h.vacant]

theorem Point.Keeps.onLink {x y : Point} (h : x.Keeps y) (l : LinkId) : y.onLink l = x.onLink l := by
  rw [Bool.eq_iff_iff, Point.onLink_iff, Point.onLink_iff, h.address, ne_eq, not_congr h.vacant]

namespace Engine.Matches

variable {pts pts' : PointId → Point} {l : LinkId} {e e' : Engine}

/-! ### Changes of points that an engine does not see -/

/-- An engine reads the points of its own link alone. -/
theorem of_points (h : e.Matches pts l) (keeps : ∀ p, (pts p).onLink l = true → (pts p).Keeps (pts' p))
    (new : ∀ p, (pts' p).isBound = true → (pts' p).onLink l = true → (pts p).onLink l = true) : e.Matches pts' l := by
  have seen {p : PointId} {n : NodeAddr} (bound : (pts p).isBound = true) (at_ : (pts p).address = some ⟨l, n⟩) :
      (pts p).Keeps (pts' p) := keeps p (Point.onLink_iff.2 ⟨Point.not_vacant_of_isBound bound, n, at_⟩)
  refine ⟨h.ascending, fun r hr => ?_, fun p bound on => ?_, h.once, fun p hp => ?_, ?_⟩
  · obtain ⟨bound, at_⟩ := h.listed r hr
    have k := seen bound at_
    exact ⟨k.bound.trans bound, k.address.trans at_⟩
  · have k := keeps p (new p bound on)
    exact h.complete p (k.bound ▸ bound) (new p bound on)
  · obtain ⟨draft, pending, on⟩ := h.queued p hp
    have k := keeps p on
    exact ⟨k.draft.2 draft, k.pending pending, (k.onLink l).trans on⟩
  · have credited := h.credited
    split
    next p n _ _ _ eq =>
      rw [eq] at credited
      have k := seen credited.1 credited.2
      exact ⟨k.bound.trans credited.1, k.address.trans credited.2⟩
    next p n eq =>
      rw [eq] at credited
      obtain ⟨_, _, on⟩ := h.queued p (List.mem_of_mem_head? credited.1)
      exact ⟨credited.1, (keeps p on).address.trans credited.2⟩
    · trivial

/-- Nor does it see a change of points that keeps them all. -/
theorem of_keeps (h : e.Matches pts l) (keeps : ∀ p, (pts p).Keeps (pts' p)) : e.Matches pts' l :=
  h.of_points (fun p _ => keeps p) fun p _ on => ((keeps p).onLink l) ▸ on

/-! ### Changes of the engine -/

/-- The exchange ended, or its answer to be discarded: nothing is credited. -/
def NothingCredited (e : Engine) : Prop :=
  ∀ x, e.exchange = some x → x = .allStop ∨ (∃ p n a b c, x = .poll p n a b c true) ∨ ∃ p n, x = .probe p n true

theorem credited_of_nothing (h : NothingCredited e) : match e.exchange with
    | some (.poll p n _ _ _ false) => (pts p).isBound = true ∧ (pts p).address = some ⟨l, n⟩
    | some (.probe p n false) => e.queue.head? = some p ∧ (pts p).address = some ⟨l, n⟩
    | _ => True := by
  split
  next eq => rcases h _ eq with x | ⟨_, _, _, _, _, x⟩ | ⟨_, _, x⟩ <;> cases x
  next eq => rcases h _ eq with x | ⟨_, _, _, _, _, x⟩ | ⟨_, _, x⟩ <;> cases x
  · trivial

theorem nothingCredited_none (h : e.exchange = none) : NothingCredited e := fun x eq => by
  rw [h] at eq
  cases eq

theorem nothingCredited_allStop (h : e.exchange = some .allStop) : NothingCredited e := fun x eq => by
  rw [h] at eq
  cases eq
  exact .inl rfl

theorem nothingCredited_discard (x : Option Exchange) (h : e.exchange = x.map Exchange.discard) : NothingCredited e := by
  intro y eq
  rw [h] at eq
  cases x with
  | none => cases eq
  | some x =>
    cases eq
    cases x with
    | poll => exact .inr (.inl ⟨_, _, _, _, _, rfl⟩)
    | probe => exact .inr (.inr ⟨_, _, rfl⟩)
    | allStop => exact .inl rfl

/-- An engine with the same roster and queue and nothing credited. -/
theorem uncredited (h : e.Matches pts l) (roster : e'.roster = e.roster) (queue : e'.queue = e.queue)
    (nothing : NothingCredited e') : e'.Matches pts l :=
  ⟨roster ▸ h.ascending, roster ▸ h.listed, roster ▸ h.complete, queue ▸ h.once, queue ▸ h.queued,
    credited_of_nothing nothing⟩

/-- An engine with an empty roster and queue, on a link with no BOUND or PLANNED point. -/
theorem of_empty (roster : e.roster = []) (queue : e.queue = []) (nothing : NothingCredited e)
    (unbound : ∀ p, (pts p).onLink l = true → (pts p).isBound = false) : e.Matches pts l := by
  refine ⟨roster ▸ .nil, ?_, fun p bound on => ?_, queue ▸ .nil, ?_, credited_of_nothing nothing⟩
  · rw [roster]
    exact fun r hr => nomatch hr
  · rw [unbound p on] at bound
    cases bound
  · rw [queue]
    exact fun p hp => nomatch hp

/-- The cycle position, the attempts and the times are read by nothing here. -/
theorem of_fields (h : e.Matches pts l) (roster : e'.roster = e.roster) (queue : e'.queue = e.queue)
    (exchange : e'.exchange = e.exchange) : e'.Matches pts l := by
  refine ⟨roster ▸ h.ascending, roster ▸ h.listed, roster ▸ h.complete, queue ▸ h.once, queue ▸ h.queued, ?_⟩
  rw [exchange, queue]
  exact h.credited

/-- A DRAFT point of the link, PENDING and not queued yet, joins the tail of the queue (R84). -/
theorem append (h : e.Matches pts l) {p : PointId} (draft : (pts p).life = .draft)
    (pending : (pts p).bindOutcome = .pending) (on : (pts p).onLink l = true) (new : p ∉ e.queue) (k : LinkState) :
    Engine.Matches pts l { e with link := k, queue := e.queue ++ [p] } := by
  refine ⟨h.ascending, h.listed, h.complete, ?_, fun q hq => ?_, ?_⟩
  · exact List.nodup_append.2 ⟨h.once, List.nodup_singleton p, fun a ha b hb => by
      rw [List.mem_singleton.1 hb]
      exact fun eq => new (eq ▸ ha)⟩
  · rcases List.mem_append.1 hq with hq | hq
    · exact h.queued q hq
    · rw [List.mem_singleton.1 hq]
      exact ⟨draft, pending, on⟩
  · have credited := h.credited
    dsimp only
    split
    next eq =>
      rw [eq] at credited
      exact credited
    next eq =>
      rw [eq] at credited
      exact ⟨by rw [List.head?_append, credited.1]; rfl, credited.2⟩
    · trivial

theorem join (h : e.Matches pts l) {p : PointId} (draft : (pts p).life = .draft)
    (pending : (pts p).bindOutcome = .pending) (on : (pts p).onLink l = true) (new : p ∉ e.queue) :
    (e.join p).Matches pts l := by
  unfold Engine.join Engine.queueProbe
  split
  · exact h.append draft pending on new _
  · split
    · exact h.append draft pending on new _
    · exact h
    · exact h
  · split
    · exact h.append draft pending on new _
    · exact h
    · exact h

theorem queueProbe (h : e.Matches pts l) {p : PointId} (draft : (pts p).life = .draft)
    (pending : (pts p).bindOutcome = .pending) (on : (pts p).onLink l = true) (new : p ∉ e.queue) :
    (e.queueProbe p).Matches pts l := by
  unfold Engine.queueProbe
  split
  · exact h.append draft pending on new _
  · exact h
  · exact h

theorem rested (h : e.Matches pts l) : e.rested.Matches pts l := by
  have absent : Engine.Matches pts l { e with cycle := none } := h.of_fields rfl rfl rfl
  unfold Engine.rested
  split
  · exact h
  · exact h
  · split
    · exact absent
    · exact h
  · split
    · exact absent
    · exact h

/-- A point leaves the link, or stays on it unbound (R31, R42, R83 to R85). -/
theorem without (h : e.Matches pts l) {p : PointId} (others : ∀ q, p ≠ q → pts' q = pts q)
    (gone : (pts' p).isBound = true → (pts' p).onLink l = true → False) : (e.without p).Matches pts' l := by
  refine rested ⟨h.ascending.filter _, fun r hr => ?_, fun q bound on => ?_, h.once.filter _, fun q hq => ?_, ?_⟩
  · obtain ⟨hr, ne⟩ := List.mem_filter.1 hr
    rw [others r.point (Ne.symm (bne_iff_ne.1 ne))]
    exact h.listed r hr
  · have ne : p ≠ q := fun eq => gone (eq ▸ bound) (eq ▸ on)
    rw [others q ne] at bound on
    obtain ⟨r, hr, eq⟩ := h.complete q bound on
    exact ⟨r, List.mem_filter.2 ⟨hr, by simpa [eq] using Ne.symm ne⟩, eq⟩
  · obtain ⟨hq, ne⟩ := List.mem_filter.1 hq
    rw [others q (Ne.symm (bne_iff_ne.1 ne))]
    exact h.queued q hq
  · have credited := h.credited
    dsimp only
    split
    next q n a b c eq =>
      obtain ⟨x, hx, eq⟩ := Option.map_eq_some_iff.1 eq
      cases x with
      | poll q' n' a' b' c' d =>
        simp only [Exchange.discardFor, Exchange.poll.injEq, Bool.or_eq_false_iff, beq_eq_false_iff_ne] at eq
        obtain ⟨rfl, rfl, _, _, _, rfl, ne⟩ := eq
        rw [hx] at credited
        rw [others q' (Ne.symm ne)]
        exact credited
      | probe => cases eq
      | allStop => cases eq
    next q n eq =>
      obtain ⟨x, hx, eq⟩ := Option.map_eq_some_iff.1 eq
      cases x with
      | poll => cases eq
      | probe q' n' d =>
        simp only [Exchange.discardFor, Exchange.probe.injEq, Bool.or_eq_false_iff, beq_eq_false_iff_ne] at eq
        obtain ⟨rfl, rfl, rfl, ne⟩ := eq
        rw [hx] at credited
        rw [others q' (Ne.symm ne)]
        refine ⟨?_, credited.2⟩
        obtain ⟨tail, queue⟩ := List.head?_eq_some_iff.1 credited.1
        rw [queue, List.filter_cons_of_pos (by simpa using ne)]
        rfl
      | allStop => cases eq
    · trivial

end Engine.Matches

/-- A roster entry joins in ascending node address: nothing else joins, and the order stays (R74). -/
theorem mem_rosterInsert {r q : RosterEntry} : ∀ {l : List RosterEntry}, q ∈ rosterInsert r l ↔ q = r ∨ q ∈ l
  | [] => by simp [rosterInsert]
  | a :: l => by
    unfold rosterInsert
    split
    · simp
    · simp only [List.mem_cons, mem_rosterInsert (l := l)]
      tauto

theorem pairwise_rosterInsert {r : RosterEntry} : ∀ {l : List RosterEntry}, (∀ q ∈ l, q.node ≠ r.node) →
    (l.Pairwise fun a b => a.node < b.node) → (rosterInsert r l).Pairwise fun a b => a.node < b.node
  | [], _, _ => List.pairwise_singleton _ _
  | a :: l, apart, sorted => by
    obtain ⟨first, rest⟩ := List.pairwise_cons.1 sorted
    unfold rosterInsert
    split
    next below =>
      refine List.pairwise_cons.2 ⟨fun q hq => ?_, sorted⟩
      rcases List.mem_cons.1 hq with rfl | hq
      · exact below
      · exact lt_trans (Fin.lt_def.2 below) (first q hq)
    next above =>
      refine List.pairwise_cons.2 ⟨fun q hq => ?_, pairwise_rosterInsert (fun q hq => apart q (.tail _ hq)) rest⟩
      rcases mem_rosterInsert.1 hq with rfl | hq
      · exact lt_of_le_of_ne (Fin.le_def.2 (Nat.le_of_not_lt above)) (apart a (.head _))
      · exact first q hq

end Sys2Proof.Machine
end

section

/-! Which commands touch column addresses and rosters: a predicate of the links, and of what the links read in the points, is
kept by every step if the commands of chapters 2 and 4 that write these keep it. -/
namespace Sys2Proof.Machine

namespace State

variable {s t : State}

/-! ### What keeps a point as the links read it -/

theorem Judged.keeps (h : s.Judged t) (p : PointId) : (s.point p).Keeps (t.point p) := by
  rw [h.points p]
  exact ⟨rfl, rfl, Iff.rfl, id⟩

theorem keeps_settle (s : State) (p : PointId) : (s.point p).Keeps (s.settle.point p) := by
  rw [point_settle]
  exact ⟨rfl, rfl, Iff.rfl, id⟩

theorem keeps_fall (x : Point) : x.Keeps x.fall := by
  refine ⟨rfl, ?_, ?_, id⟩
  · unfold Point.isBound Point.fall
    cases x.life <;> rfl
  · unfold Point.fall
    cases x.life <;> simp

theorem keeps_planTo (s : State) (st : PlanState) (p : PointId) : (s.point p).Keeps ((s.planTo st).point p) := by
  by_cases compiled : s.plan.state = .compiled
  · rw [point_planTo_of_compiled s compiled]
    exact keeps_fall _
  · rw [planTo_of_not_compiled s compiled]
    exact .refl _

theorem keeps_mapPoints {f : PointId → Point → Point} (h : ∀ p x, Point.Keeps x (f p x)) (p : PointId) :
    (s.point p).Keeps ((s.mapPoints f).point p) := by
  rw [point_mapPoints]
  exact h p _

theorem keeps_setPoint {p : PointId} {x : Point} (h : (s.point p).Keeps x) (q : PointId) :
    (s.point q).Keeps ((s.setPoint p x).point q) := by
  rw [point_setPoint]
  split
  next e => exact e ▸ h
  · exact .refl _

/-- A rewriting of a point that writes none of what the links read. -/
theorem keeps_ite {c : Prop} [Decidable c] {x y : Point} (h : x.Keeps y) : x.Keeps (if c then y else x) := by
  split
  · exact h
  · exact .refl x

theorem keeps_writeBody (s : State) (b : BodyId) (x : Option Body) (p : PointId) :
    (s.point p).Keeps ((s.writeBody b x).point p) := by
  refine keeps_mapPoints (s := s.setBody b x) (fun p y => ?_) p
  split
  · exact ⟨rfl, rfl, Iff.rfl, id⟩
  · exact keeps_ite ⟨rfl, rfl, Iff.rfl, id⟩

/-- An accepted LINK-RESET as the links see it, before the plan's fall and the skew entries (R90). -/
def resetPoints (s : State) (l : LinkId) : State :=
  (s.mapPoints fun _ x => if x.onLink l then x.linkReset else x).setEngine l (s.engine l).reset

end State

/-- An engine with the same roster and queue, whose exchange stands or is not to be credited. -/
structure Engine.Keeps (e e' : Engine) : Prop where
  roster : e'.roster = e.roster
  queue : e'.queue = e.queue
  exchange : e'.exchange = e.exchange ∨ Engine.Matches.NothingCredited e'

theorem Engine.Keeps.refl (e : Engine) : e.Keeps e := ⟨rfl, rfl, .inl rfl⟩

theorem Engine.Matches.keeps {pts : PointId → Point} {l : LinkId} {e e' : Engine} (h : e.Matches pts l)
    (k : e.Keeps e') : e'.Matches pts l :=
  k.exchange.elim (h.of_fields k.roster k.queue) (h.uncredited k.roster k.queue)

theorem Engine.keeps_stopNotice (e : Engine) : e.Keeps e.stopNotice := by
  unfold Engine.stopNotice
  split <;> exact ⟨rfl, rfl, .inl rfl⟩

theorem Engine.rested_eq (e : Engine) : ∃ c, e.rested = { e with cycle := c } := by
  unfold Engine.rested
  split
  · exact ⟨_, rfl⟩
  · exact ⟨_, rfl⟩
  · split <;> exact ⟨_, rfl⟩
  · split <;> exact ⟨_, rfl⟩

theorem Engine.keeps_slotOver (e : Engine) : e.Keeps e.slotOver := by
  obtain ⟨c, eq⟩ := Engine.rested_eq { e with exchange := none, slotLeft := none }
  unfold Engine.slotOver
  rw [eq]
  exact ⟨rfl, rfl, .inr (Engine.Matches.nothingCredited_none rfl)⟩

theorem Engine.keeps_tick (e : Engine) : e.Keeps e.tick := by
  unfold Engine.tick
  split
  · obtain ⟨c, eq⟩ := Engine.rested_eq { e.countDown with exchange := none, slotLeft := none }
    unfold Engine.slotOver
    rw [eq]
    exact ⟨rfl, rfl, .inr (Engine.Matches.nothingCredited_none rfl)⟩
  · exact ⟨rfl, rfl, .inl rfl⟩

namespace State

variable {s t : State}

theorem keeps_setEngine {l : LinkId} {e : Engine} (h : (s.engine l).Keeps e) (m : LinkId) :
    (s.engine m).Keeps ((s.setEngine l e).engine m) := by
  by_cases eq : l = m
  · subst eq
    rw [engine_setEngine_self]
    exact h
  · rw [engine_setEngine_of_ne s eq]
    exact .refl _

theorem keeps_sendAllStop (s : State) (l m : LinkId) : (s.engine m).Keeps ((s.sendAllStop l).engine m) := by
  unfold sendAllStop
  dsimp only
  split
  · refine keeps_setEngine (Engine.Keeps.mk (e' := { s.engine l with
      stopPending := false, exchange := some .allStop, slotLeft := some Config.slotUs }) rfl rfl (.inr ?_)) m
    exact Engine.Matches.nothingCredited_allStop rfl
  · exact .refl _

theorem keeps_startBreak (s : State) (l m : LinkId) : (s.engine m).Keeps ((s.startBreak l).engine m) := by
  unfold startBreak
  dsimp only
  split
  · refine keeps_setEngine (Engine.Keeps.mk (e' := { s.engine l with
      exchange := none, slotLeft := none, breakLeft := some Config.breakUs }) rfl rfl (.inr ?_)) m
    exact Engine.Matches.nothingCredited_none rfl
  · exact .refl _

end State

/-- A predicate of what the links read, kept by each command that writes it. -/
structure LinkLaw (P : State → Prop) : Prop where
  frame : ∀ {s t : State}, P s → (∀ l, (s.engine l).Keeps (t.engine l)) → (∀ p, (s.point p).Keeps (t.point p)) → P t
  initial : ∀ {s : State}, (∀ p, s.point p = Point.vacant) →
    (∀ l, (s.engine l).roster = [] ∧ (s.engine l).queue = [] ∧ Engine.Matches.NothingCredited (s.engine l)) → P s
  enrol : ∀ {s : State} {p a}, P s → (s.point p).life = .vacant → s.FreeFor p a → P (s.enrol p a)
  rebind : ∀ {s : State} {p a}, P s → (s.point p).life = .draft → (s.point p).bindOutcome ≠ .pending →
    (s.point p).address = some a → P (s.rebind p a)
  retire : ∀ {s : State} {p}, P s → (s.point p).life ≠ .vacant → P (s.retire p)
  readdress : ∀ {s : State} {p a}, P s → (s.point p).life ≠ .vacant → s.FreeFor p a → P (s.readdress p a)
  resetPoints : ∀ {s : State} (l), P s → P (s.resetPoints l)
  sendPoll : ∀ {s : State} (l), P s → P (s.sendPoll l)
  sendProbe : ∀ {s : State} (l), P s → P (s.sendProbe l)
  endBreak : ∀ {s : State} (l), P s → P (s.endBreak l)
  setGoodRun : ∀ {s : State} (l p n), P s → P (s.setGoodRun l p n)
  noAnswer : ∀ {s : State} {l p n}, P s → (s.engine l).exchange = some (.probe p n false) →
    P ((s.endSlot l).noAnswer l p)
  bindAnnounced : ∀ {s : State} {l p n} (f), P s → (s.engine l).exchange = some (.probe p n false) →
    P ((s.endSlot l).bindAnnounced l p n f)

namespace LinkLaw

open State

variable {P : State → Prop} (law : LinkLaw P) {s : State}
include law

/-- What writes neither links nor what they read in points. -/
theorem points {t : State} (hs : P s) (links : t.links = s.links) (keeps : ∀ p, (s.point p).Keeps (t.point p)) : P t :=
  law.frame hs (fun l => by
    rw [show t.engine l = s.engine l from congrArg (Table.at · l) links]
    exact .refl _) keeps

theorem same {t : State} (hs : P s) (links : t.links = s.links) (points : t.points = s.points) : P t :=
  law.points hs links fun p => by
    rw [show t.point p = s.point p from congrArg (Table.at · p) points]
    exact .refl _

theorem stable : Stable P := stable_of_judged fun judged hs => law.points hs judged.links judged.keeps

theorem setPoint {p : PointId} {x : Point} (hs : P s) (h : (s.point p).Keeps x) : P (s.setPoint p x) :=
  law.points hs rfl (keeps_setPoint h)

theorem mapPoints {f : PointId → Point → Point} (hs : P s) (h : ∀ p x, Point.Keeps x (f p x)) : P (s.mapPoints f) :=
  law.points hs rfl (keeps_mapPoints h)

theorem planTo (st : PlanState) (hs : P s) : P (s.planTo st) :=
  law.points hs (by rw [planTo_eq]) (keeps_planTo s st)

theorem draftIfCompiled (hs : P s) : P s.draftIfCompiled := by
  unfold State.draftIfCompiled
  split
  · exact law.planTo _ hs
  · exact hs

theorem enterService (hs : P s) : P s.enterService := by
  rw [enterService_eq]
  exact law.same hs rfl rfl

theorem writeInhibit (set : List PointId) (v : Option Bool) (hs : P s) : P (s.writeInhibit set v) := by
  obtain ⟨f, eq⟩ := writeInhibit_eq s set v
  rw [eq]
  exact law.mapPoints hs fun _ _ => ⟨rfl, rfl, Iff.rfl, id⟩

theorem planAfterBodies (b : BodyId) (x : Option Body) (hs : P s) : P (s.writeBody b x).planAfterBodies :=
  law.planTo (s := s.writeBody b x) _ (law.points hs rfl (keeps_writeBody s b x))

theorem endSlot (l : LinkId) (hs : P s) : P (s.endSlot l) :=
  law.frame hs (keeps_setEngine (Engine.keeps_slotOver _)) fun _ => .refl _

theorem setLatch (hs : P s) : P s.setLatch := by
  rw [setLatch_eq_endJog]
  have ended : P (s.stopClaimed.endJog .stop) :=
    law.stable.endJog .stop (law.stable.claimAll .stop (s := { s with stop := true }) (law.same hs rfl rfl))
  refine law.frame ended (fun l => ?_) fun _ => .refl _
  rw [show State.engine (State.raiseFlag { s.stopClaimed.endJog .stop with
      links := (s.stopClaimed.endJog .stop).links.mapAll fun _ e => e.stopNotice } .stop) l =
    ((s.stopClaimed.endJog .stop).engine l).stopNotice from Table.at_mapAll _ _ l]
  exact Engine.keeps_stopNotice _

theorem takeAssertion (l : LineId) (hs : P s) : P (s.takeAssertion l) := by
  have stable := law.stable
  unfold State.takeAssertion
  dsimp only
  split
  · exact law.setLatch hs
  · exact stable.claimAll _ hs
  · split
    · exact stable.claim _ _ hs
    · exact stable.claimAll _ hs
    · exact hs
  · split
    · split
      · exact law.points hs (Judged.startStage s _).links (Judged.startStage s _).keeps
      · exact hs
    · exact hs
    · exact hs
  · exact stable.flag _ hs
  all_goals exact hs

theorem resumeFrom (g : GroupId) (hs : P s) : P (s.resumeFrom g) := by
  unfold State.resumeFrom resumeStage
  dsimp only
  split
  · split
    · refine law.points ?_ (Judged.completeStage _ g).links (Judged.completeStage _ g).keeps
      exact law.stable.evalFollow g (law.same hs rfl rfl)
    · exact law.stable.evalFollow g (law.same hs rfl rfl)
  · exact law.same hs rfl rfl
  · exact hs

theorem change (hs : P s) {u : State} (change : s.Change u) : P u := by
  have stable := law.stable
  have kept {x y : Point} (address : y.address = x.address) (life : y.life = x.life)
      (bindOutcome : y.bindOutcome = x.bindOutcome) : x.Keeps y :=
    ⟨address, by unfold Point.isBound; rw [life], by rw [life], fun h => bindOutcome.trans h⟩
  cases change with
  | partReset =>
    refine law.initial (fun p => ?_) fun l => ?_
    · simp [State.partReset, State.initial, State.point, Table.at]
    · rw [show s.partReset.engine l = (s.engine l).partReset from Table.at_mapAll _ _ l]
      exact ⟨rfl, rfl, Engine.Matches.nothingCredited_discard _ rfl⟩
  | enrol vacant free => exact law.enrol hs vacant free
  | rebind draft idle address => exact law.rebind hs draft idle address
  | retire enrolled => exact law.retire hs enrolled
  | recapture p => exact stable.evaluateIndex p (law.setPoint hs (kept rfl rfl rfl))
  | readdress v unplanned enrolled free => exact law.writeInhibit _ v (law.readdress hs enrolled free)
  | amend set d v =>
    refine law.writeInhibit _ v ?_
    cases d with
    | none => exact hs
    | some d => exact stable.writeDerating (law.mapPoints hs fun p x => keeps_ite (kept rfl rfl rfl))
  | define => exact stable.judgeSkew _ (law.planAfterBodies _ _ hs)
  | amendBody skew =>
    split
    · exact stable.judgeSkew _ (law.planAfterBodies _ _ hs)
    · exact law.planAfterBodies _ _ hs
  | retireBody => exact stable.judgeSkew _ (law.planAfterBodies _ _ hs)
  | addCustom => exact law.draftIfCompiled (law.same hs rfl rfl)
  | amendFields =>
    split
    · exact stable.evaluate _ (law.same hs rfl rfl)
    · exact law.same hs rfl rfl
  | retireConstraint => exact law.draftIfCompiled (law.same hs rfl rfl)
  | beginCompile => exact law.same (law.planTo .compiling hs) rfl rfl
  | compileSucceeds _ built =>
    obtain ⟨constraints, f, rfl⟩ := build_eq built
    have indexed : P (State.mapPoints { s with constraints := constraints } fun p x => { x with index := f p x }) :=
      law.points hs rfl (keeps_mapPoints (s := { s with constraints := constraints }) fun _ _ => kept rfl rfl rfl)
    refine stable.flag .plan (stable.evaluateAll (law.points indexed rfl (keeps_mapPoints fun _ x => ?_)))
    split
    next h => exact ⟨rfl, by simp [Point.isBound, h.1], by simp [h.1], id⟩
    · exact .refl x
  | compileFails => exact law.same hs rfl rfl
  | @form g bs =>
    exact law.points hs rfl (keeps_mapPoints (s := s.mapBodies _) fun _ _ => keeps_ite (kept rfl rfl rfl))
  | @beginRun g o =>
    refine law.enterService (law.points ?_ (Judged.startStage _ g).links (Judged.startStage _ g).keeps)
    exact law.points hs rfl (keeps_mapPoints fun _ _ => keeps_ite (kept rfl rfl rfl))
  | @startStage g => exact law.points hs (Judged.startStage s g).links (Judged.startStage s g).keeps
  | amendRun o gap =>
    unfold State.amendRun
    split
    · exact hs
    · dsimp only
      split <;> exact law.same hs rfl rfl
  | claim g c => exact stable.claim g c hs
  | resume => exact law.resumeFrom _ hs
  | disband g => exact law.points hs rfl (keeps_mapPoints (s := s.mapBodies _) fun _ _ => keeps_ite (kept rfl rfl rfl))
  | expireStage => exact stable.claim _ _ (law.same hs rfl rfl)
  | beginJog => exact law.enterService (law.points hs rfl (keeps_setPoint (kept rfl rfl rfl)))
  | endJog o => exact stable.endJog o hs
  | setLatch => exact law.setLatch hs
  | clearLatch => exact law.same hs rfl rfl
  | rewriteLine l =>
    unfold rewriteLine
    dsimp only
    split
    · exact law.takeAssertion l (law.same hs rfl rfl)
    · exact law.same hs rfl rfl
  | output => exact law.same hs rfl rfl
  | acceptLevel pins l v =>
    unfold acceptLevel takeRelease
    dsimp only
    split
    · exact law.takeAssertion l (law.same hs rfl rfl)
    split
    · split <;> exact law.same hs rfl rfl
    · exact law.same hs rfl rfl
  | resetLink l =>
    obtain ⟨unbound, eq⟩ := resetLink_eq s l
    rw [eq]
    refine Stable.foldl (fun p => stable.judgeSkewOf p) unbound ?_
    split
    · exact law.planTo _ (law.resetPoints l hs)
    · exact law.resetPoints l hs
  | clearFlags m =>
    obtain ⟨flags, eq⟩ := clearFlags_eq s m
    rw [eq]
    exact law.same hs rfl rfl
  | enables => exact law.same hs rfl rfl
  | limits => exact law.same hs rfl rfl
  | missReply l p =>
    have missed (n : Nat) : P ((s.endSlot l).setPoint p { (s.endSlot l).point p with missed := n }) :=
      law.setPoint (law.endSlot l hs) (kept rfl rfl rfl)
    obtain ⟨n, eq | eq | eq⟩ := missReply_cases (s.endSlot l) l p
    · rw [eq]
      exact missed n
    · rw [eq]
      exact law.setGoodRun l p 0 (missed n)
    · rw [eq]
      exact stable.lose (law.setGoodRun l p 0 (law.setPoint (missed n) (kept rfl rfl rfl)))
  | noAnswer awaited => exact law.noAnswer hs awaited
  | report l p permit f =>
    refine stable.handOn p permit ?_
    obtain eq | eq | eq := storeReport_cases (s.endSlot l) l p f
    · rw [eq]
      exact law.setPoint (law.endSlot l hs) (kept rfl rfl rfl)
    · rw [eq]
      exact law.setGoodRun l p 1 (law.setPoint (law.endSlot l hs) (kept rfl rfl rfl))
    · rw [eq]
      exact stable.flag .found (law.setGoodRun l p 0 (law.setPoint (law.endSlot l hs) (kept rfl rfl rfl)))
  | bindAnnounced f awaited => exact law.bindAnnounced f hs awaited

theorem quiet (hs : P s) {u : State} (quiet : s.Quiet u) : P u := by
  cases quiet with
  | none => exact hs
  | selector => exact law.same hs rfl rfl
  | lock => exact law.same hs rfl rfl
  | releasePlan => exact law.same hs rfl rfl
  | powerOn =>
    refine law.initial (fun p => ?_) fun l => ?_
    · simp [State.powerOn, State.initial, State.point, Table.at]
    · rw [show s.powerOn.engine l = Engine.powerOn by simp [State.powerOn, State.initial, State.engine, Table.at]]
      exact ⟨rfl, rfl, Engine.Matches.nothingCredited_none rfl⟩
  | phase => exact law.same hs rfl rfl
  | endWait =>
    unfold State.endWait
    split
    · exact law.same hs rfl rfl
    · exact hs
    · exact hs
  | sendPoll l => exact law.sendPoll l hs
  | sendProbe l => exact law.sendProbe l hs
  | sendAllStop l =>
    refine law.frame hs (keeps_sendAllStop s l) fun p => ?_
    obtain ⟨e, eq⟩ := sendAllStop_eq s l
    rw [eq]
    exact .refl _
  | endSlot l => exact law.endSlot l hs
  | startBreak l =>
    refine law.frame hs (keeps_startBreak s l) fun p => ?_
    obtain ⟨e, eq⟩ := startBreak_eq s l
    rw [eq]
    exact .refl _
  | endBreak l => exact law.endBreak l hs
  | pins => exact law.same hs rfl rfl
  | debounce => exact law.same hs rfl rfl

theorem kept : Kept P where
  pending _ hs := law.same hs rfl rfl
  countDown {s} hs := law.frame hs (fun l => by rw [engine_countDown]; exact Engine.keeps_tick _) fun _ => .refl _
  change {s u} hs change := law.points (law.change hs change) rfl (keeps_settle u)
  quiet hs quiet := law.quiet hs quiet

end LinkLaw

end Sys2Proof.Machine
end

section

/-! O7: column addresses stay distinct, and each link's roster, queue and exchange stay matched to the points. -/
namespace Sys2Proof.Machine

namespace State

variable {s t : State}

/-! ### Column addresses (R24) -/

/-- An address is read together with whether its point is VACANT. -/
theorem AddressesUnique.of_addresses (h : s.AddressesUnique) (address : ∀ p, (t.point p).address = (s.point p).address)
    (vacant : ∀ p, (t.point p).life = .vacant ↔ (s.point p).life = .vacant) : t.AddressesUnique := by
  refine ⟨fun p hp => (address p).trans (h.1 p ((vacant p).1 hp)), fun p q ne hp hq some => ?_⟩
  rw [address p, address q]
  exact h.2 p q ne (mt (vacant p).2 hp) (mt (vacant q).2 hq) (address p ▸ some)

theorem AddressesUnique.freeFor (h : s.AddressesUnique) {p : PointId} {a : Address}
    (at_ : (s.point p).address = some a) : s.FreeFor p a := by
  intro q enrolled same
  by_contra ne
  have enrolled' : (s.point p).life ≠ .vacant := fun vacant => by
    rw [h.1 p vacant] at at_
    cases at_
  exact h.2 q p ne enrolled enrolled' (by rw [same]; rfl) (same.trans at_.symm)

theorem AddressesUnique.setPoint (h : s.AddressesUnique) {p : PointId} {x : Point}
    (vacant : x.life = .vacant → x.address = none) (free : ∀ a, x.address = some a → s.FreeFor p a) :
    (s.setPoint p x).AddressesUnique := by
  have apart (q : PointId) (ne : p ≠ q) (hq : (s.point q).life ≠ .vacant) (some : x.address.isSome) :
      x.address ≠ (s.point q).address := by
    obtain ⟨a, eq⟩ := Option.isSome_iff_exists.1 some
    exact fun same => ne (free a eq q hq (same.symm.trans eq)).symm
  refine ⟨fun q => ?_, fun q r ne => ?_⟩
  · rw [point_setPoint]
    split
    · exact vacant
    · exact h.1 q
  · rw [point_setPoint, point_setPoint]
    by_cases eq : p = q
    · subst eq
      rw [if_pos rfl, if_neg ne]
      exact fun _ => apart r ne
    by_cases er : p = r
    · subst er
      rw [if_pos rfl, if_neg eq]
      intro hq _ _ same
      exact apart q eq hq (by rw [← same]; assumption) same.symm
    · rw [if_neg eq, if_neg er]
      exact h.2 q r ne

/-- Every non-VACANT point has a column address. -/
def Placed (s : State) : Prop := ∀ p, (s.point p).life ≠ .vacant → (s.point p).address.isSome

theorem Placed.setPoint (h : s.Placed) {p : PointId} {x : Point} (placed : x.life ≠ .vacant → x.address.isSome) :
    (s.setPoint p x).Placed := fun q => by
  rw [point_setPoint]
  split
  · exact placed
  · exact h q

theorem Placed.of_addresses (h : s.Placed) (address : ∀ p, (t.point p).address = (s.point p).address)
    (vacant : ∀ p, (t.point p).life = .vacant ↔ (s.point p).life = .vacant) : t.Placed := fun p hp => by
  rw [address p]
  exact h p (mt (vacant p).2 hp)

theorem address_linkReset (x : Point) : x.linkReset.address = x.address := by
  unfold Point.linkReset
  split <;> rfl

theorem life_linkReset {x : Point} : x.linkReset.life = .vacant ↔ x.life = .vacant := by
  unfold Point.linkReset
  split
  next bound => exact ⟨nofun, fun vacant => absurd vacant (Point.not_vacant_of_isBound bound)⟩
  · rfl

theorem point_resetPoints (s : State) (l : LinkId) (p : PointId) :
    (s.resetPoints l).point p = if (s.point p).onLink l then (s.point p).linkReset else s.point p :=
  point_mapPoints s _ p

theorem address_resetPoints (s : State) (l : LinkId) (p : PointId) :
    ((s.resetPoints l).point p).address = (s.point p).address := by
  rw [point_resetPoints]
  split
  · exact address_linkReset _
  · rfl

theorem life_resetPoints (s : State) (l : LinkId) (p : PointId) :
    ((s.resetPoints l).point p).life = .vacant ↔ (s.point p).life = .vacant := by
  rw [point_resetPoints]
  split
  · exact life_linkReset
  · rfl

/-- The bind outcome that the end of a break writes (R91) is one that no roster or queue tells apart. -/
theorem keeps_awaited (l : LinkId) (_p : PointId) (x : Point) :
    x.Keeps (if x.onLink l && x.life == .draft then { x with bindOutcome := .pending } else x) :=
  keeps_ite ⟨rfl, rfl, Iff.rfl, fun _ => rfl⟩

theorem endBreak_point (s : State) (l : LinkId) (p : PointId) : (s.point p).Keeps ((s.endBreak l).point p) := by
  unfold endBreak
  dsimp only
  split
  · exact .refl _
  split
  · exact keeps_mapPoints (s := s) (keeps_awaited l) p
  · exact .refl _

theorem addressesUnique_linkLaw : LinkLaw AddressesUnique where
  frame hs _ points := hs.of_addresses (fun p => (points p).address) fun p => (points p).vacant
  initial vacant _ := by
    refine ⟨fun p _ => ?_, fun p q _ hp => absurd ?_ hp⟩
    · rw [vacant p]
      rfl
    · rw [vacant p]
      rfl
  enrol {s p a} hs _ free := by
    refine hs.setPoint (p := p) (x := { Point.vacant with life := .draft, address := some a, bindOutcome := .pending })
      nofun fun b eq => ?_
    cases eq
    exact free
  rebind {s p a} hs _ _ at_ :=
    hs.setPoint (p := p) (x := { s.point p with bindOutcome := .pending }) (hs.1 p) fun _ => hs.freeFor
  retire {s p} hs _ := by
    rw [retire_eq]
    exact hs.setPoint (p := p) (x := Point.vacant) (fun _ => rfl) nofun
  readdress {s p a} hs _ free := by
    obtain ⟨links, eq⟩ := readdress_eq s p a
    rw [eq]
    have moved : AddressesUnique (s.setPoint p { (s.point p).unbind with address := some a }) := by
      refine hs.setPoint nofun fun b eq => ?_
      cases eq
      exact free
    have judged := Judged.judgeSkewOf
      { s with points := s.points.put p { (s.point p).unbind with address := some a }, links := links } p
    exact moved.of_addresses (fun q => (judged.keeps q).address) fun q => (judged.keeps q).vacant
  resetPoints {s} l hs := hs.of_addresses (address_resetPoints s l) fun p => life_resetPoints s l p
  sendPoll {s} l hs := by
    obtain ⟨e, eq⟩ := sendPoll_eq s l
    rw [eq]
    exact hs
  sendProbe {s} l hs := by
    obtain ⟨e, eq⟩ := sendProbe_eq s l
    rw [eq]
    exact hs
  endBreak {s} l hs := hs.of_addresses (fun p => (endBreak_point s l p).address) fun p => (endBreak_point s l p).vacant
  setGoodRun l p n hs := hs
  noAnswer {s l p n} hs _ :=
    hs.setPoint (p := p) (x := { s.point p with bindOutcome := .noAnswer }) (hs.1 p) fun _ => hs.freeFor
  bindAnnounced {s l p n} f hs _ :=
    hs.setPoint (p := p) (x := (s.point p).bound f) nofun fun _ => hs.freeFor

end State

/-! ### Rosters, queues and exchanges (R74, R83 to R85) -/

namespace Engine

variable {e : Engine}

theorem mem_roster_of_choose {r : RosterEntry} (h : e.choose = .poll r) : r ∈ e.roster := by
  unfold choose at h
  split at h
  · cases h
  split at h
  next q next_ =>
    cases h
    exact List.mem_of_find?_eq_some next_
  · cases h
  next q rest roster =>
    cases h
    rw [roster]
    exact .head _
  · cases h
  · cases h

theorem head?_queue_of_choose {p : PointId} (h : e.choose = .probe p) : e.queue.head? = some p := by
  unfold choose at h
  split at h
  · cases h
  split at h
  · cases h
  next q rest _ queue =>
    cases h
    rw [queue]
    rfl
  · cases h
  · cases h
  · cases h

theorem roster_without (e : Engine) (p : PointId) : (e.without p).roster = e.roster.filter fun r => r.point != p := by
  unfold without
  obtain ⟨c, eq⟩ := rested_eq { e with
    roster := e.roster.filter fun r => r.point != p, queue := e.queue.filter fun q => q != p,
    attempts := if e.queue.head? = some p then 0 else e.attempts, exchange := e.exchange.map (Exchange.discardFor p) }
  rw [eq]

theorem queue_without (e : Engine) (p : PointId) : (e.without p).queue = e.queue.filter fun q => q != p := by
  unfold without
  obtain ⟨c, eq⟩ := rested_eq { e with
    roster := e.roster.filter fun r => r.point != p, queue := e.queue.filter fun q => q != p,
    attempts := if e.queue.head? = some p then 0 else e.attempts, exchange := e.exchange.map (Exchange.discardFor p) }
  rw [eq]

theorem exchange_without (e : Engine) (p : PointId) :
    (e.without p).exchange = e.exchange.map (Exchange.discardFor p) := by
  unfold without
  obtain ⟨c, eq⟩ := rested_eq { e with
    roster := e.roster.filter fun r => r.point != p, queue := e.queue.filter fun q => q != p,
    attempts := if e.queue.head? = some p then 0 else e.attempts, exchange := e.exchange.map (Exchange.discardFor p) }
  rw [eq]

theorem exchange_slotOver (e : Engine) : e.slotOver.exchange = none := by
  obtain ⟨c, eq⟩ := rested_eq { e with exchange := none, slotLeft := none }
  unfold slotOver
  rw [eq]

namespace Matches

variable {pts pts' : PointId → Point} {l : LinkId}

/-- Another queue, and nothing credited. -/
theorem requeue (h : e.Matches pts l) {e' : Engine} (roster : e'.roster = e.roster) (nothing : NothingCredited e')
    (once : e'.queue.Nodup) (queued : ∀ p ∈ e'.queue, (pts p).life = .draft ∧ (pts p).bindOutcome = .pending
      ∧ (pts p).onLink l = true) : e'.Matches pts l :=
  ⟨roster ▸ h.ascending, roster ▸ h.listed, roster ▸ h.complete, once, queued, credited_of_nothing nothing⟩

/-- A good run is no part of what a roster entry must match. -/
theorem setGoodRun (h : e.Matches pts l) (p : PointId) (n : Nat) : (e.setGoodRun p n).Matches pts l := by
  have same (r : RosterEntry) : (if r.point = p then { r with goodRun := n } else r).node = r.node
      ∧ (if r.point = p then { r with goodRun := n } else r).point = r.point := by
    split <;> exact ⟨rfl, rfl⟩
  refine ⟨?_, fun r hr => ?_, fun q bound on => ?_, h.once, h.queued, h.credited⟩
  · refine List.pairwise_map.2 (h.ascending.imp fun {a b} below => ?_)
    rw [(same a).1, (same b).1]
    exact below
  · obtain ⟨a, ha, rfl⟩ := List.mem_map.1 hr
    rw [(same a).1, (same a).2]
    exact h.listed a ha
  · obtain ⟨a, ha, eq⟩ := h.complete q bound on
    exact ⟨_, List.mem_map_of_mem ha, (same a).2.trans eq⟩

/-- A point of the link that was unbound joins the roster at its node address (R86). -/
theorem bind (h : e.Matches pts l) {p : PointId} {n : NodeAddr} (others : ∀ q, p ≠ q → pts' q = pts q)
    (free : ∀ q, (pts q).isBound = true → (pts q).address = some ⟨l, n⟩ → q = p)
    (bound : (pts' p).isBound = true) (at_ : (pts' p).address = some ⟨l, n⟩) (ended : e.exchange = none) :
    Engine.Matches pts' l { e.without p with roster := rosterInsert ⟨n, p, 0⟩ (e.without p).roster } := by
  have mem {r : RosterEntry} : r ∈ (e.without p).roster ↔ r ∈ e.roster ∧ r.point ≠ p := by
    rw [roster_without, List.mem_filter, bne_iff_ne]
  refine ⟨pairwise_rosterInsert (fun r hr => ?_) ?_, fun r hr => ?_, fun q hq on => ?_, ?_, fun q hq => ?_, ?_⟩
  · obtain ⟨hr, ne⟩ := mem.1 hr
    obtain ⟨rbound, rat⟩ := h.listed r hr
    exact fun eq => ne (free r.point rbound (rat.trans (congrArg (fun k => some (Address.mk l k)) eq)))
  · rw [roster_without]
    exact h.ascending.filter _
  · rcases mem_rosterInsert.1 hr with rfl | hr
    · exact ⟨bound, at_⟩
    · obtain ⟨hr, ne⟩ := mem.1 hr
      rw [others r.point (Ne.symm ne)]
      exact h.listed r hr
  · by_cases eq : p = q
    · exact ⟨_, mem_rosterInsert.2 (.inl rfl), eq⟩
    · rw [others q eq] at hq on
      obtain ⟨r, hr, rp⟩ := h.complete q hq on
      exact ⟨r, mem_rosterInsert.2 (.inr (mem.2 ⟨hr, rp ▸ Ne.symm eq⟩)), rp⟩
  · rw [show Engine.queue _ = (e.without p).queue from rfl, queue_without]
    exact h.once.filter _
  · rw [show Engine.queue _ = (e.without p).queue from rfl, queue_without, List.mem_filter, bne_iff_ne] at hq
    rw [others q (Ne.symm hq.2)]
    exact h.queued q hq.1
  · refine credited_of_nothing (nothingCredited_none ?_)
    rw [show Engine.exchange _ = (e.without p).exchange from rfl, exchange_without, ended]
    rfl

end Matches

end Engine

namespace State

variable {s t : State}

/-- Every link engine matches the points. -/
def EnginesMatch (s : State) : Prop := ∀ l, (s.engine l).Matches s.point l

theorem EnginesMatch.setEngine (h : s.EnginesMatch) {l : LinkId} {e : Engine} (he : e.Matches s.point l) :
    (s.setEngine l e).EnginesMatch := fun m => by
  by_cases eq : l = m
  · subst eq
    rw [engine_setEngine_self]
    exact he
  · rw [engine_setEngine_of_ne s eq]
    exact h m

/-- A point's new record is not seen by a link that neither record is on. -/
theorem matches_setPoint {e : Engine} {l : LinkId} (h : e.Matches s.point l) {p : PointId} {x : Point}
    (off : ¬(s.point p).onLink l = true) (still : x.isBound = true → ¬x.onLink l = true) :
    e.Matches (s.setPoint p x).point l := by
  refine h.of_points (fun q on => ?_) fun q => ?_
  · rw [point_setPoint]
    split
    next eq => exact absurd (eq ▸ on) off
    · exact .refl _
  · rw [point_setPoint]
    split
    · exact fun bound on => absurd on (still bound)
    · exact fun _ on => on

/-- A point leaves its link, or stays on it unbound: its roster entry, its place in the queue and its answer go. -/
theorem EnginesMatch.leave (h : s.EnginesMatch) {p : PointId} {a : Address} {x : Point}
    (at_ : (s.point p).address = some a) (unbound : x.isBound = false) :
    ((s.setPoint p x).setEngine a.link ((s.engine a.link).without p)).EnginesMatch := fun m => by
  by_cases eq : a.link = m
  · subst eq
    rw [engine_setEngine_self]
    refine (h a.link).without (fun q ne => point_setPoint_of_ne s ne x) ?_
    rw [show (State.setEngine _ _ _).point p = (s.setPoint p x).point p from rfl, point_setPoint_self, unbound]
    nofun
  · rw [engine_setEngine_of_ne _ eq]
    refine matches_setPoint (h m) (fun on => ?_) fun bound => ?_
    · obtain ⟨_, n, here⟩ := Point.onLink_iff.1 on
      rw [at_] at here
      cases here
      exact eq rfl
    · rw [unbound] at bound
      cases bound

/-- Once it has left, no link has it queued. -/
theorem EnginesMatch.not_queued_of_left (h : s.EnginesMatch) {p : PointId} {a : Address} {x : Point}
    (at_ : (s.point p).address = some a) (m : LinkId) :
    p ∉ (((s.setPoint p x).setEngine a.link ((s.engine a.link).without p)).engine m).queue := by
  by_cases eq : a.link = m
  · subst eq
    rw [engine_setEngine_self, Engine.queue_without, List.mem_filter, bne_iff_ne]
    exact fun both => both.2 rfl
  · rw [engine_setEngine_of_ne _ eq]
    intro queued
    obtain ⟨_, _, on⟩ := (h m).queued p queued
    obtain ⟨_, n, here⟩ := Point.onLink_iff.1 on
    rw [at_] at here
    cases here
    exact eq rfl

theorem onLink_of_linkHasPoint {l : LinkId} (h : s.linkHasPoint l = false) (p : PointId) :
    ¬(s.point p).onLink l = true := by
  intro on
  obtain ⟨enrolled, n, at_⟩ := Point.onLink_iff.1 on
  have none := List.any_eq_false.1 h p (mem_ids p)
  simp [enrolled, at_] at none

theorem EnginesMatch.idleIfEmpty (h : s.EnginesMatch) (l : LinkId) : (s.idleIfEmpty l).EnginesMatch := by
  unfold State.idleIfEmpty
  split
  next empty =>
    simp only [Bool.and_eq_true, Bool.not_eq_true'] at empty
    refine h.setEngine (.of_empty rfl rfl (Engine.Matches.nothingCredited_discard _ rfl) fun p on => ?_)
    exact absurd on (onLink_of_linkHasPoint empty.2 p)
  · exact h

theorem EnginesMatch.frame (h : s.EnginesMatch) (engines : ∀ l, (s.engine l).Keeps (t.engine l))
    (points : ∀ p, (s.point p).Keeps (t.point p)) : t.EnginesMatch :=
  fun l => ((h l).of_keeps points).keeps (engines l)

theorem EnginesMatch.enrol (h : s.EnginesMatch) {p : PointId} {a : Address} (vacant : (s.point p).life = .vacant) :
    (s.enrol p a).EnginesMatch := by
  have moved : (s.setPoint p { Point.vacant with
      life := .draft, address := some a, bindOutcome := .pending }).EnginesMatch :=
    fun m => matches_setPoint (h m) (fun on => (Point.onLink_iff.1 on).1 vacant) nofun
  refine moved.setEngine ((moved a.link).join ?_ ?_ ?_ fun queued => ?_)
  · rw [point_setPoint_self]
  · rw [point_setPoint_self]
  · rw [point_setPoint_self]
    exact Point.onLink_iff.2 ⟨nofun, a.node, rfl⟩
  · obtain ⟨draft, _⟩ := (h a.link).queued p queued
    rw [vacant] at draft
    cases draft

theorem EnginesMatch.rebind (h : s.EnginesMatch) {p : PointId} {a : Address} (draft : (s.point p).life = .draft)
    (idle : (s.point p).bindOutcome ≠ .pending) (at_ : (s.point p).address = some a) :
    (s.rebind p a).EnginesMatch := by
  have pending : (s.setPoint p { s.point p with bindOutcome := .pending }).EnginesMatch :=
    h.frame (fun _ => .refl _) (keeps_setPoint ⟨rfl, rfl, Iff.rfl, fun _ => rfl⟩)
  refine pending.setEngine ((pending a.link).queueProbe ?_ ?_ ?_ fun queued => ?_)
  · rw [point_setPoint_self]
    exact draft
  · rw [point_setPoint_self]
  · rw [point_setPoint_self]
    exact Point.onLink_iff.2 ⟨by rw [draft]; nofun, a.node, at_⟩
  · exact idle ((h a.link).queued p queued).2.1

theorem EnginesMatch.retire (h : s.EnginesMatch) {p : PointId} : (s.retire p).EnginesMatch := by
  unfold State.retire
  dsimp only
  split
  next a at_ => exact (h.leave at_ rfl).idleIfEmpty a.link
  next at_ =>
    refine fun m => matches_setPoint (h m) (fun on => ?_) nofun
    obtain ⟨_, n, here⟩ := Point.onLink_iff.1 on
    rw [at_] at here
    cases here

theorem EnginesMatch.readdress (h : s.EnginesMatch) {p : PointId} {a o : Address}
    (at_ : (s.point p).address = some o) : (s.readdress p a).EnginesMatch := by
  have judged (t : State) (ht : t.EnginesMatch) : (t.judgeSkewOf p).EnginesMatch := by
    have j := Judged.judgeSkewOf t p
    refine ht.frame (fun l => ?_) j.keeps
    rw [show (t.judgeSkewOf p).engine l = t.engine l from congrArg (Table.at · l) j.links]
    exact .refl _
  have left := h.leave (x := { (s.point p).unbind with address := some a }) at_ rfl
  have new := h.not_queued_of_left (x := { (s.point p).unbind with address := some a }) at_ a.link
  have joins (t : State) (ht : t.EnginesMatch)
      (same : t.point p = { (s.point p).unbind with address := some a }) (hq : p ∉ (t.engine a.link).queue) :
      (t.setEngine a.link ((t.engine a.link).join p)).EnginesMatch := by
    refine ht.setEngine ((ht a.link).join ?_ ?_ ?_ hq) <;> rw [same]
    · rfl
    · rfl
    · exact Point.onLink_iff.2 ⟨nofun, a.node, rfl⟩
  unfold State.readdress
  dsimp only
  rw [at_]
  dsimp only
  refine judged _ ?_
  split
  · exact joins _ left (point_setPoint_self s p _) new
  next other =>
    refine joins _ (left.idleIfEmpty o.link) ?_ ?_
    · obtain ⟨e, eq⟩ := idleIfEmpty_eq ((s.setPoint p { (s.point p).unbind with address := some a }).setEngine o.link
        ((s.engine o.link).without p)) o.link
      exact (congrArg (State.point · p) eq).trans (point_setPoint_self s p _)
    · obtain ⟨e, eq⟩ := idleIfEmpty_eq ((s.setPoint p { (s.point p).unbind with address := some a }).setEngine o.link
        ((s.engine o.link).without p)) o.link
      refine (congrArg (fun t => p ∉ (State.engine t a.link).queue) eq).mpr ?_
      rw [engine_setEngine_of_ne _ other]
      exact new

theorem onLink_resetPoints (s : State) (l m : LinkId) (p : PointId) :
    ((s.resetPoints l).point p).onLink m = (s.point p).onLink m := by
  rw [Bool.eq_iff_iff, Point.onLink_iff, Point.onLink_iff, address_resetPoints, ne_eq,
    not_congr (life_resetPoints s l p)]

theorem EnginesMatch.resetPoints (h : s.EnginesMatch) (l : LinkId) : (s.resetPoints l).EnginesMatch := by
  intro m
  by_cases eq : l = m
  · subst eq
    rw [show (s.resetPoints l).engine l = (s.engine l).reset from engine_setEngine_self _ l _]
    refine .of_empty rfl rfl (Engine.Matches.nothingCredited_discard _ rfl) fun p on => ?_
    rw [onLink_resetPoints] at on
    rw [point_resetPoints, if_pos on]
    unfold Point.linkReset
    split
    · rfl
    next unbound => exact Bool.eq_false_iff.2 unbound
  · rw [show (s.resetPoints l).engine m = s.engine m from engine_setEngine_of_ne _ eq _]
    refine (h m).of_points (fun p on => ?_) fun p _ on => (onLink_resetPoints s l m p) ▸ on
    rw [point_resetPoints, if_neg]
    · exact .refl _
    · intro also
      obtain ⟨_, _, here⟩ := Point.onLink_iff.1 on
      obtain ⟨_, _, there⟩ := Point.onLink_iff.1 also
      rw [here] at there
      cases there
      exact eq rfl

theorem EnginesMatch.sendPoll (h : s.EnginesMatch) (l : LinkId) : (s.sendPoll l).EnginesMatch := by
  unfold State.sendPoll
  dsimp only
  split
  · split
    next r chosen =>
      have hl := h l
      exact h.setEngine ⟨hl.ascending, hl.listed, hl.complete, hl.once, hl.queued,
        hl.listed r (Engine.mem_roster_of_choose chosen)⟩
    all_goals exact h
  · exact h

theorem EnginesMatch.sendProbe (h : s.EnginesMatch) (l : LinkId) : (s.sendProbe l).EnginesMatch := by
  unfold State.sendProbe
  dsimp only
  split
  · split
    next p chosen =>
      have hl := h l
      have head := Engine.head?_queue_of_choose chosen
      obtain ⟨_, _, on⟩ := hl.queued p (List.mem_of_mem_head? head)
      obtain ⟨_, n, at_⟩ := Point.onLink_iff.1 on
      refine h.setEngine ⟨hl.ascending, hl.listed, hl.complete, hl.once, hl.queued, head, ?_⟩
      rw [at_]
      simp [nodeAt, at_]
    all_goals exact h
  · exact h

theorem mem_draftsByNode {l : LinkId} {p : PointId} (h : p ∈ s.draftsByNode l) :
    (s.point p).life = .draft ∧ ∃ n, (s.point p).address = some ⟨l, n⟩ := by
  obtain ⟨n, _, found⟩ := List.mem_filterMap.1 h
  have here := List.find?_some found
  simp only [Bool.and_eq_true, beq_iff_eq] at here
  exact ⟨here.1, n, here.2⟩

theorem nodup_draftsByNode (s : State) (l : LinkId) : (s.draftsByNode l).Nodup := by
  refine List.Nodup.filterMap (fun n m p hn hm => ?_) (List.nodup_finRange 16)
  have atN := List.find?_some hn
  have atM := List.find?_some hm
  simp only [Bool.and_eq_true, beq_iff_eq] at atN atM
  have same := atN.2.symm.trans atM.2
  cases same
  rfl

theorem EnginesMatch.endBreak (h : s.EnginesMatch) (l : LinkId) : (s.endBreak l).EnginesMatch := by
  unfold State.endBreak
  dsimp only
  split
  · exact h
  split
  · change EnginesMatch (State.setEngine (s.mapPoints _) l _)
    have mapped : EnginesMatch (s.mapPoints fun _ x =>
        if x.onLink l && x.life == .draft then { x with bindOutcome := .pending } else x) :=
      h.frame (fun _ => .refl _) (keeps_mapPoints (keeps_awaited l))
    refine mapped.setEngine ((mapped l).requeue rfl (Engine.Matches.nothingCredited_none rfl)
      (nodup_draftsByNode s l) fun p hp => ?_)
    obtain ⟨draft, n, at_⟩ := mem_draftsByNode hp
    have on : (s.point p).onLink l = true := Point.onLink_iff.2 ⟨by rw [draft]; nofun, n, at_⟩
    rw [point_mapPoints, if_pos (by simp [on, draft])]
    exact ⟨draft, rfl, on⟩
  · exact h.setEngine ((h l).requeue rfl (Engine.Matches.nothingCredited_none rfl) List.nodup_nil nofun)

theorem EnginesMatch.noAnswer (h : s.EnginesMatch) {l : LinkId} {p : PointId} {n : NodeAddr}
    (at_ : (s.point p).address = some ⟨l, n⟩) (draft : (s.point p).life = .draft) : (s.noAnswer l p).EnginesMatch :=
  h.leave (x := { s.point p with bindOutcome := .noAnswer }) at_ (Point.draft_iff.1 draft).1

theorem EnginesMatch.bindAnnounced (h : s.EnginesMatch) {l : LinkId} {p : PointId} {n : NodeAddr} (f : AnnounceFields)
    (at_ : (s.point p).address = some ⟨l, n⟩) (free : s.FreeFor p ⟨l, n⟩) (ended : (s.engine l).exchange = none) :
    (s.bindAnnounced l p n f).EnginesMatch := by
  intro m
  by_cases eq : l = m
  · subst eq
    rw [show (s.bindAnnounced l p n f).engine l = _ from engine_setEngine_self _ l _]
    refine (h l).bind (fun q ne => point_setPoint_of_ne s ne _) (fun q bound => free q ?_) ?_ ?_ ended
    · exact Point.not_vacant_of_isBound bound
    · exact congrArg Point.isBound (point_setPoint_self s p _)
    · exact (congrArg Point.address (point_setPoint_self s p _)).trans at_
  · rw [show (s.bindAnnounced l p n f).engine m = _ from engine_setEngine_of_ne _ eq _]
    have elsewhere {x : Point} (same : x.address = some ⟨l, n⟩) : ¬x.onLink m = true := fun on => by
      obtain ⟨_, _, here⟩ := Point.onLink_iff.1 on
      rw [same] at here
      cases here
      exact eq rfl
    exact matches_setPoint (h m) (elsewhere at_) fun _ => elsewhere at_

/-- What a PROBE that is still to be credited tells of its point: it is DRAFT, at the address probed (R85). -/
theorem EnginesMatch.probed (h : s.EnginesMatch) {l : LinkId} {p : PointId} {n : NodeAddr}
    (awaited : (s.engine l).exchange = some (.probe p n false)) :
    (s.point p).life = .draft ∧ (s.point p).address = some ⟨l, n⟩ := by
  have credited := (h l).credited
  rw [awaited] at credited
  exact ⟨((h l).queued p (List.mem_of_mem_head? credited.1)).1, credited.2⟩

theorem EnginesMatch.endSlot (h : s.EnginesMatch) (l : LinkId) : (s.endSlot l).EnginesMatch :=
  h.frame (keeps_setEngine (Engine.keeps_slotOver _)) fun _ => .refl _

theorem RostersMatch.parts (h : s.RostersMatch) : s.AddressesUnique ∧ s.Placed ∧ s.EnginesMatch :=
  s.rostersMatch_iff.1 h

theorem RostersMatch.of_parts (unique : s.AddressesUnique) (placed : s.Placed) (engines : s.EnginesMatch) :
    s.RostersMatch :=
  s.rostersMatch_iff.2 ⟨unique, placed, engines⟩

theorem rostersMatch_linkLaw : LinkLaw RostersMatch where
  frame hs engines points :=
    let ⟨unique, placed, links⟩ := hs.parts
    .of_parts (addressesUnique_linkLaw.frame unique engines points)
      (placed.of_addresses (fun p => (points p).address) fun p => (points p).vacant) (links.frame engines points)
  initial {s} vacant idle := by
    refine .of_parts (addressesUnique_linkLaw.initial vacant idle) (fun p hp => absurd ?_ hp) fun l => ?_
    · rw [vacant p]
      rfl
    · obtain ⟨roster, queue, nothing⟩ := idle l
      refine .of_empty roster queue nothing fun p _ => ?_
      rw [vacant p]
      rfl
  enrol hs vacant free :=
    let ⟨unique, placed, links⟩ := hs.parts
    .of_parts (addressesUnique_linkLaw.enrol unique vacant free) (placed.setPoint fun _ => rfl) (links.enrol vacant)
  rebind {s p a} hs draft idle at_ :=
    let ⟨unique, placed, links⟩ := hs.parts
    .of_parts (addressesUnique_linkLaw.rebind unique draft idle at_)
      (placed.setPoint (p := p) (x := { s.point p with bindOutcome := .pending }) (placed p))
      (links.rebind draft idle at_)
  retire {s p} hs enrolled := by
    obtain ⟨unique, placed, links⟩ := hs.parts
    refine .of_parts (addressesUnique_linkLaw.retire unique enrolled) ?_ links.retire
    rw [retire_eq]
    exact placed.setPoint (p := p) (x := Point.vacant) nofun
  readdress {s p a} hs enrolled free := by
    obtain ⟨unique, placed, links⟩ := hs.parts
    obtain ⟨o, at_⟩ := Option.isSome_iff_exists.1 (placed p enrolled)
    refine .of_parts (addressesUnique_linkLaw.readdress unique enrolled free) ?_ (links.readdress at_)
    obtain ⟨table, eq⟩ := readdress_eq s p a
    rw [eq]
    have moved : Placed (s.setPoint p { (s.point p).unbind with address := some a }) := placed.setPoint fun _ => rfl
    have judged := Judged.judgeSkewOf
      { s with points := s.points.put p { (s.point p).unbind with address := some a }, links := table } p
    exact moved.of_addresses (fun q => (judged.keeps q).address) fun q => (judged.keeps q).vacant
  resetPoints {s} l hs :=
    let ⟨unique, placed, links⟩ := hs.parts
    .of_parts (addressesUnique_linkLaw.resetPoints l unique)
      (placed.of_addresses (address_resetPoints s l) fun p => life_resetPoints s l p) (links.resetPoints l)
  sendPoll {s} l hs := by
    obtain ⟨unique, placed, links⟩ := hs.parts
    refine .of_parts (addressesUnique_linkLaw.sendPoll l unique) ?_ (links.sendPoll l)
    obtain ⟨e, eq⟩ := sendPoll_eq s l
    rw [eq]
    exact placed
  sendProbe {s} l hs := by
    obtain ⟨unique, placed, links⟩ := hs.parts
    refine .of_parts (addressesUnique_linkLaw.sendProbe l unique) ?_ (links.sendProbe l)
    obtain ⟨e, eq⟩ := sendProbe_eq s l
    rw [eq]
    exact placed
  endBreak {s} l hs :=
    let ⟨unique, placed, links⟩ := hs.parts
    .of_parts (addressesUnique_linkLaw.endBreak l unique)
      (placed.of_addresses (fun p => (endBreak_point s l p).address) fun p => (endBreak_point s l p).vacant)
      (links.endBreak l)
  setGoodRun l p n hs :=
    let ⟨unique, placed, links⟩ := hs.parts
    .of_parts unique placed (links.setEngine ((links l).setGoodRun p n))
  noAnswer {s l p n} hs awaited :=
    let ⟨unique, placed, links⟩ := hs.parts
    let ⟨draft, at_⟩ := links.probed awaited
    .of_parts (addressesUnique_linkLaw.noAnswer unique awaited)
      (placed.setPoint (p := p) (x := { s.point p with bindOutcome := .noAnswer }) (placed p))
      ((links.endSlot l).noAnswer at_ draft)
  bindAnnounced {s l p n} f hs awaited :=
    let ⟨unique, placed, links⟩ := hs.parts
    let ⟨_, at_⟩ := links.probed awaited
    .of_parts (addressesUnique_linkLaw.bindAnnounced f unique awaited)
      (placed.setPoint (p := p) (x := (s.point p).bound f) fun _ => by
        rw [show ((s.point p).bound f).address = (s.point p).address from rfl, at_]
        rfl)
      ((links.endSlot l).bindAnnounced f at_ (unique.freeFor at_) (by
        rw [show (s.endSlot l).engine l = (s.engine l).slotOver from engine_setEngine_self s l _]
        exact Engine.exchange_slotOver _))

end State

/-- Settles O7: both predicates are link laws, so every step keeps them. -/
theorem stepKeepsAddressesAndRosters : Obligations.StepKeepsAddressesAndRosters :=
  ⟨State.addressesUnique_linkLaw.kept.step, State.rostersMatch_linkLaw.kept.step⟩

end Sys2Proof.Machine
end

section

/-! Time and reset: what is due, what a microsecond does (R76, R77), and the power-on values (R19 to R200). -/
namespace Sys2Proof.Machine

/-! ### One microsecond -/

theorem runOut_iff {t : Option Nat} : runOut t = true ↔ t = some 0 := by
  simp [runOut]

theorem Engine.rested_of_none {e : Engine} (h : e.exchange = none) :
    e.rested = { e with cycle := if e.roster = [] ∧ e.queue = [] then none else e.cycle } := by
  unfold Engine.rested
  rw [h]
  dsimp only
  simp only [Bool.and_eq_true, List.isEmpty_iff]
  split
  · rfl
  · rw [← h]

/-- The command an unanswered slot makes when its time is out (R81, R85). -/
theorem Engine.unanswered_eq_some_iff (e : Engine) (l : LinkId) (c : Instr) : e.unanswered l = some c ↔
    (c = .missedReply l ∧ e.slotLeft = some 0 ∧ ∃ p n permit target stop d,
        e.exchange = some (.poll p n permit target stop d))
      ∨ c = .probeUnanswered l ∧ e.slotLeft = some 0 ∧ ∃ p n d, e.exchange = some (.probe p n d) := by
  have flip (a : Instr) : some a = some c ↔ c = a := by rw [Option.some.injEq, eq_comm]
  unfold Engine.unanswered
  split
  next out =>
    rw [runOut_iff] at out
    cases exchange : e.exchange with
    | none => simp
    | some x => cases x <;> simp [flip, out]
  next running =>
    rw [runOut_iff] at running
    simp [running]

namespace State

variable {s : State}

theorem mem_expiries_iff (s : State) (c : Instr) : c ∈ s.expiries ↔
    (∃ l, c = .debounceTimerExpiry l ∧ (s.line l).function.isInput = true ∧ (s.line l).timer = some 0)
      ∨ (∃ g, c = .stageTimerExpiry g ∧ (s.group g).state = .staging ∧ (s.group g).timer = some 0)
      ∨ (c = .jogTimerExpiry ∧ ∃ j, s.jog.active = some j ∧ j.timer = 0)
      ∨ (c = .compilationComplete ∧ ∃ k, s.plan.compilation = some k ∧ k.left = 0)
      ∨ (∃ l, c = .breakEnd l ∧ (s.engine l).breakLeft = some 0)
      ∨ ∃ l, (s.engine l).unanswered l = some c := by
  have named {n : Nat} (holds : Fin n → Bool) (f : Fin n → Instr) :
      c ∈ ((ids n).filter holds).map f ↔ ∃ i, c = f i ∧ holds i = true := by
    simp only [List.mem_map, List.mem_filter, mem_ids, true_and, eq_comm (a := c)]
    exact exists_congr fun i => and_comm
  have once (holds : Bool) (d : Instr) : c ∈ (if holds then [d] else []) ↔ c = d ∧ holds = true := by
    cases holds <;> simp
  unfold expiries
  simp only [List.mem_append, named, once, List.mem_filterMap, mem_ids, true_and, or_assoc]
  simp only [Bool.and_eq_true, runOut_iff, beq_iff_eq, Option.map_eq_some_iff]

/-- The commands of the times that a microsecond lets run out (log 4). -/
theorem mem_expiries_countDown_iff (s : State) (c : Instr) : c ∈ s.countDown.expiries ↔
    (∃ l, c = .debounceTimerExpiry l ∧ (s.line l).function.isInput = true ∧ (s.countDown.line l).timer = some 0)
      ∨ (∃ g, c = .stageTimerExpiry g ∧ (s.group g).state = .staging ∧ (s.countDown.group g).timer = some 0)
      ∨ (c = .jogTimerExpiry ∧ ∃ j, s.countDown.jog.active = some j ∧ j.timer = 0)
      ∨ (c = .compilationComplete ∧ ∃ k, s.countDown.plan.compilation = some k ∧ k.left = 0)
      ∨ (∃ l, c = .breakEnd l ∧ (s.countDown.engine l).breakLeft = some 0)
      ∨ (∃ l, c = .missedReply l ∧ (s.countDown.engine l).slotLeft = some 0
          ∧ ∃ p n permit target stop d, (s.countDown.engine l).exchange = some (.poll p n permit target stop d))
      ∨ ∃ l, c = .probeUnanswered l ∧ (s.countDown.engine l).slotLeft = some 0
          ∧ ∃ p n d, (s.countDown.engine l).exchange = some (.probe p n d) := by
  rw [mem_expiries_iff]
  simp only [Engine.unanswered_eq_some_iff, exists_or, line_countDown, group_countDown, Line.function_tick,
    Group.state_tick]

/-- A waiting part counts its wait down (R200). -/
theorem tick_waiting {n : Nat} (h : s.phase = .waiting n) : s.tick = { s with
    phase := .waiting (n - 1), pending := s.pending ++ if n - 1 = 0 then [.startUpWaitEnd] else [] } := by
  unfold tick
  rw [h]

theorem tick_held (h : s.phase = .held) : s.tick = s := by
  unfold tick
  rw [h]

theorem step_idle (h : s.pending = []) : step s = .next s.tick := by
  unfold step
  rw [h]

end State

theorem Engine.tick_eq_rested (e : Engine) :
    e.tick = if e.countDown.exchange = some .allStop ∧ e.countDown.slotLeft = some 0 then
      { e.countDown with
        exchange := none, slotLeft := none
        cycle := if e.countDown.roster = [] ∧ e.countDown.queue = [] then none else e.countDown.cycle }
      else e.countDown := by
  have ended : e.countDown.slotOver = { e.countDown with
      exchange := none, slotLeft := none
      cycle := if e.countDown.roster = [] ∧ e.countDown.queue = [] then none else e.countDown.cycle } :=
    Engine.rested_of_none (e := { e.countDown with exchange := none, slotLeft := none }) rfl
  unfold Engine.tick
  simp only [runOut_iff]
  rw [ended]
  rfl

/-- Settles O2: `due` and `expiries` are read as the commands they hold, and the rest is `countDown`. -/
theorem emptyQueueStepSendsOrTicks : Obligations.EmptyQueueStepSendsOrTicks := by
  intro s idle
  refine ⟨fun held => ?held, fun n waiting => ?waiting, fun c => ?due, fun working busy => ?sends,
    fun working quiet => ⟨{ s.countDown with pending := s.pending ++ s.countDown.expiries }, ?ticks, rfl,
      State.line_countDown s, State.group_countDown s, rfl, fun l => ?engine, rfl, fun c => ?pending⟩⟩
  case held => rw [State.step_idle idle, State.tick_held held]
  case waiting =>
    rw [State.step_idle idle, State.tick_waiting waiting, idle]
    rfl
  case due =>
    rw [State.mem_due_iff]
    exact exists_congr fun l => Engine.due_eq_some_iff _ l c
  case sends =>
    rw [State.step_idle idle, State.tick_working s working, if_neg busy, idle]
    rfl
  case ticks => rw [State.step_idle idle, State.tick_working s working, if_pos quiet]
  case engine => exact (State.engine_countDown s l).trans (Engine.tick_eq_rested _)
  case pending =>
    show c ∈ s.pending ++ s.countDown.expiries ↔ _
    rw [idle, List.nil_append]
    exact State.mem_expiries_countDown_iff s c

/-! ### The power-on values -/

namespace State

variable (pins : Table Level 12) (limits : Limits) (lock : Bool) (phase : Phase) (out : DataOut)
  (pending : List Instr) (choices : Nat)

theorem point_initial (p : PointId) :
    (State.initial pins limits lock phase out pending choices).point p = Point.vacant := by
  simp [State.initial, State.point, Table.at]

theorem body_initial (b : BodyId) : (State.initial pins limits lock phase out pending choices).body b = none := by
  simp [State.initial, State.body, Table.at]

theorem constraint_initial (c : ConstraintId) :
    (State.initial pins limits lock phase out pending choices).constraint c = none := by
  simp [State.initial, State.constraint, Table.at]

theorem engine_initial (l : LinkId) :
    (State.initial pins limits lock phase out pending choices).engine l = Engine.powerOn := by
  simp [State.initial, State.engine, Table.at]

theorem group_initial (g : GroupId) :
    (State.initial pins limits lock phase out pending choices).group g = Group.free := by
  simp [State.initial, State.group, Table.at]

theorem line_initial (l : LineId) :
    (State.initial pins limits lock phase out pending choices).line l = Line.powerOn l (pins.at l) := by
  simp [State.initial, State.line]

theorem skew_initial (b : BodyId) : (State.initial pins limits lock phase out pending choices).skew.at b = false := by
  simp [State.initial, Table.at]

/-- STOP alone is set at power-on (R191). -/
theorem isSet_initial (f : Flag) :
    (State.initial pins limits lock phase out pending choices).attention.isSet f = decide (f = .stop) := by
  show Attention.isSet ⟨1, 0, false⟩ f = decide (f = .stop)
  cases f with
  | stage g | gap g | arrived g | held g => revert g; decide
  | _ => decide

theorem rostersMatch_initial : (State.initial pins limits lock phase out pending choices).RostersMatch :=
  rostersMatch_linkLaw.initial (point_initial pins limits lock phase out pending choices) fun l => by
    rw [engine_initial]
    exact ⟨rfl, rfl, Engine.Matches.nothingCredited_none rfl⟩

theorem groupsHeld_initial : (State.initial pins limits lock phase out pending choices).GroupsHeld := fun g => by
  rw [group_initial]
  exact ⟨⟨nofun, nofun⟩, fun _ => rfl⟩

theorem stagesCounted_initial : (State.initial pins limits lock phase out pending choices).StagesCounted := fun g => by
  rw [group_initial]
  nofun

end State

/-- Settles O3: each record of `State.initial` is read off. -/
theorem resetHoldsThePowerOnValues : Obligations.ResetHoldsThePowerOnValues := by
  have line (l : LineId) : State.reset.line l = Line.powerOn l (State.reset.pins.at l) :=
    State.line_initial resetPins _ _ _ _ _ _ l
  refine ⟨fun p => ?points, fun b => ?bodies, fun c => ?constraints, rfl, fun l => ?links, fun b => ?skew,
    fun g => ?groups, rfl, rfl, fun l => ?lines, fun f => ?flags, rfl, rfl, rfl, rfl, rfl, rfl, rfl, rfl, rfl,
    fun l => ?pins, rfl⟩
  case points => exact State.point_initial _ _ _ _ _ _ _ p
  case bodies => exact State.body_initial _ _ _ _ _ _ _ b
  case constraints => exact State.constraint_initial _ _ _ _ _ _ _ c
  case links => exact State.engine_initial _ _ _ _ _ _ _ l
  case skew => exact State.skew_initial _ _ _ _ _ _ _ b
  case groups => exact State.group_initial _ _ _ _ _ _ _ g
  case lines =>
    rw [line l]
    exact ⟨rfl, rfl, rfl, rfl, rfl, rfl, rfl⟩
  case flags => exact State.isSet_initial _ _ _ _ _ _ _ f
  case pins =>
    show resetPins.at l = _
    revert l
    decide

/-- Settles O4: each invariant holds where every block is at its power-on value. -/
theorem resetHasTheInvariants : Obligations.ResetHasTheInvariants :=
  have rosters : State.reset.RostersMatch := State.rostersMatch_initial _ _ _ _ _ _ _
  ⟨State.settled_initial _ _ _ _ _ _ _, fun _ => rfl, rosters.parts.1, rosters,
    (State.idle_initial _ _ _ _ _ _ _).inServiceToMove, State.groupsHeld_initial _ _ _ _ _ _ _,
    State.stagesCounted_initial _ _ _ _ _ _ _, State.seatsMatch_initial _ _ _ _ _ _ _⟩

end Sys2Proof.Machine
end

section

/-! The derived fields (R143, R167): the rows of the permit table, one lemma each, and how output lines are driven. -/
namespace Sys2Proof.Machine

theorem restPermit_not_motion (b : Bool) : restPermit b ≠ .raise ∧ restPermit b ≠ .lower := by
  cases b <;> exact ⟨nofun, nofun⟩

theorem Point.raised_iff {band : Nat} {x : Point} :
    x.raised band = true ↔ ∃ h r, x.height = some h ∧ x.rest = some r ∧ r + band < h := by
  unfold Point.raised Point.lift
  cases x.height with
  | none => simp
  | some h =>
    cases x.rest with
    | none => simp
    | some r =>
      simp only [decide_eq_true_eq, Option.some.injEq, exists_and_left, exists_eq_left']
      omega

namespace State

variable {s : State} {p : PointId} {x : Point}

/-! ### R143's table, row by row -/

theorem permitOf_of_not_live (h : ¬(x.life = .bound ∨ x.life = .planned)) : s.permitOf p x = .none := by
  unfold permitOf
  dsimp only
  rw [if_pos]
  cases life : x.life <;> simp_all

/-- A live point that must not move stands or rests (R143, row 2). -/
theorem permitOf_of_still (live : x.life = .bound ∨ x.life = .planned)
    (still : s.stop = true ∨ x.inhibit = true ∨ x.health = .lost) :
    s.permitOf p x = restPermit (x.raised s.limits.restBand) := by
  unfold permitOf
  dsimp only
  rw [if_neg, if_pos]
  · simpa [or_assoc] using still
  · rcases live with e | e <;> simp [e]

theorem permitOf_of_moveable (live : x.life = .bound ∨ x.life = .planned)
    (free : ¬(s.stop = true ∨ x.inhibit = true ∨ x.health = .lost)) :
    s.permitOf p x = match s.jog.active with
      | some j => if j.point = p then motionPermit j.distance
          else permitOf.groupRow s x (restPermit (x.raised s.limits.restBand))
      | none => permitOf.groupRow s x (restPermit (x.raised s.limits.restBand)) := by
  have enrolled : ¬((x.life == .vacant || x.life == .draft) = true) := by
    rcases live with e | e <;> simp [e]
  have able : ¬((s.stop || x.inhibit || x.health == .lost) = true) := by simpa [or_assoc] using free
  unfold permitOf
  dsimp only
  rw [if_neg enrolled, if_neg able] <;> rfl

theorem permitOf_of_jogged (live : x.life = .bound ∨ x.life = .planned)
    (free : ¬(s.stop = true ∨ x.inhibit = true ∨ x.health = .lost)) {j : ActiveJog} (jog : s.jog.active = some j)
    (at_ : j.point = p) : s.permitOf p x = motionPermit j.distance := by
  rw [permitOf_of_moveable live free, jog]
  exact if_pos at_

theorem permitOf_of_not_jogged (live : x.life = .bound ∨ x.life = .planned)
    (free : ¬(s.stop = true ∨ x.inhibit = true ∨ x.health = .lost))
    (other : ¬∃ j, s.jog.active = some j ∧ j.point = p) :
    s.permitOf p x = permitOf.groupRow s x (restPermit (x.raised s.limits.restBand)) := by
  rw [permitOf_of_moveable live free]
  split
  next j jog => exact if_neg fun at_ => other ⟨j, jog, at_⟩
  · rfl

/-- The point is a member of a STAGING group that is neither arrived nor held back (R143, row 4). -/
def Moving (s : State) (x : Point) : Prop :=
  ∃ g r, x.group = some g ∧ (s.group g).run = some r ∧ (s.group g).state = .staging
    ∧ x.arrived = false ∧ x.followHeld = false

theorem groupRow_of_moving {rest : Permit} {g : GroupId} {r : Run} (group : x.group = some g)
    (run : (s.group g).run = some r) (staging : (s.group g).state = .staging) (going : x.arrived = false)
    (unheld : x.followHeld = false) : permitOf.groupRow s x rest = motionPermit r.travel := by
  unfold permitOf.groupRow
  simp [group, run, staging, going, unheld]

theorem groupRow_of_not_moving {rest : Permit} (h : ¬s.Moving x) : permitOf.groupRow s x rest = rest := by
  unfold permitOf.groupRow
  split
  next g group =>
    split
    next r run =>
      refine if_neg fun moves => h ?_
      simp only [Bool.and_eq_true, beq_iff_eq, Bool.not_eq_true'] at moves
      obtain ⟨⟨staging, going⟩, unheld⟩ := moves
      exact ⟨g, r, group, run, staging, going, unheld⟩
    · rfl
  · rfl

/-! ### Output lines (R167) -/

theorem other_active (x : Polarity) :
    Level.other (Polarity.active x) = if Polarity.active x = .high then Level.low else .high := by
  cases x <;> rfl

theorem driveOf_output {x : Line} (output : x.function.isInput = false) :
    s.driveOf x = some (if s.outputActive x = true then Polarity.active x.polarity
      else if Polarity.active x.polarity = .high then Level.low else .high) := by
  unfold driveOf
  rw [output, other_active]
  rfl

end State

/-- Settles O11: the rows of the table, the drives by function, and what settling writes. -/
theorem permitTable : Obligations.PermitTable := by
  refine ⟨fun s p => ?permit, fun s x => ?drive, fun s => ⟨State.point_settle s, State.line_settle s, rfl, rfl⟩⟩
  case permit =>
    refine ⟨State.permitOf_of_not_live, State.permitOf_of_still,
      fun j live free jog at_ => State.permitOf_of_jogged live free jog at_,
      fun g r live free other group run staging going unheld => ?moving, fun live free other still => ?resting,
      Point.raised_iff⟩
    case moving =>
      rw [State.permitOf_of_not_jogged live free other]
      exact State.groupRow_of_moving group run staging going unheld
    case resting =>
      rw [State.permitOf_of_not_jogged live free other]
      exact State.groupRow_of_not_moving still
  case drive =>
    refine ⟨fun input => if_pos input, fun out => ?generalOut, fun beacon => ?beacon, fun lamp => ?lamp,
      fun g moving parameter => ?moving⟩
    case generalOut =>
      rw [State.driveOf_output (by rw [out]; rfl)]
      simp [State.outputActive, out]
    case beacon =>
      rw [State.driveOf_output (by rw [beacon]; rfl)]
      simp [State.outputActive, beacon]
    case lamp =>
      rw [State.driveOf_output (by rw [lamp]; rfl)]
      simp [State.outputActive, lamp]
    case moving =>
      rw [State.driveOf_output (by rw [moving]; rfl)]
      simp [State.outputActive, moving, parameter]

/-- Settles O12: a permit to move comes from row 3 or row 4 of the table alone, and the others give none. -/
theorem noMotionWhileStopped : Obligations.NoMotionWhileStopped := by
  intro s p follow motion
  rw [follow p] at motion
  have rests (b : Bool) : ¬(restPermit b = .raise ∨ restPermit b = .lower) := by
    rw [not_or]
    exact restPermit_not_motion b
  have live : (s.point p).life = .bound ∨ (s.point p).life = .planned := by
    by_contra dead
    rw [State.permitOf_of_not_live dead] at motion
    exact motion.elim nofun nofun
  have free : ¬(s.stop = true ∨ (s.point p).inhibit = true ∨ (s.point p).health = .lost) := fun still => by
    rw [State.permitOf_of_still live still] at motion
    exact rests _ motion
  refine ⟨Bool.eq_false_iff.2 fun stopped => free (.inl stopped), ?_⟩
  by_cases jogged : ∃ j, s.jog.active = some j ∧ j.point = p
  · exact .inl jogged
  by_cases moving : s.Moving (s.point p)
  · obtain ⟨g, _, group, _, staging, going, unheld⟩ := moving
    exact .inr ⟨g, group, staging, going, unheld⟩
  · rw [State.permitOf_of_not_jogged live free jogged, State.groupRow_of_not_moving moving] at motion
    exact absurd motion (rests _)

end Sys2Proof.Machine
end

section

/-! Requests in general (R172 to R177, R183, R200): how a request is answered, the form that its checks give it, and that
one which is not acted on changes nothing. -/
namespace Sys2Proof.Machine

variable {s : State}

/-! ### A request's answer -/

/-- A request whose operands decode is answered as its act gives (R174). -/
theorem exec_of_act {α : Type} {c : Instr} {code : Byte} {o : α} {act : α → State → Answer × State} {r : Answer × State}
    (hw : s.Working) (arm : exec c s = .next (s.request code (.takes o) act)) (h : act o s = r) :
    exec c s = .next (s.answered r.2 code r.1.status r.1.payload) := by
  subst h
  rw [arm, request_takes s hw]

/-! ### Checks in their order (R176) -/

/-- Checks made in an order, and what a request does where none refuses it. -/
def checked (s : State) : List (Option (Status × List Byte)) → Answer × State → Answer × State
  | [], r => r
  | some f :: _, _ => (⟨f.1, f.2⟩, s)
  | none :: rest, r => checked s rest r

section steps

variable {cond : Prop} [Decidable cond] {n : Nat} {found : Option (Fin n)} {i : Fin n} {st : Status} {payload : List Byte}
  {kind : Byte} {rest : List (Option (Status × List Byte))} {r : Answer × State}

theorem checked_if_pos (h : cond) : checked s (refusesIf cond st payload :: rest) r = (⟨st, payload⟩, s) := by
  rw [refusesIf, if_pos h]
  rfl

theorem checked_if_neg (h : ¬cond) : checked s (refusesIf cond st payload :: rest) r = checked s rest r := by
  rw [refusesIf, if_neg h]
  rfl

theorem checked_for_some (h : found = some i) :
    checked s (refusesFor found st kind :: rest) r = (⟨st, [kind, byte i.val]⟩, s) := by
  rw [h]
  rfl

theorem checked_for_none (h : found = none) : checked s (refusesFor found st kind :: rest) r = checked s rest r := by
  rw [h]
  rfl

end steps

theorem checked_of_refused {r : Answer × State} {f : Status × List Byte} :
    ∀ {checks : List (Option (Status × List Byte))}, checks.findSome? id = some f →
      checked s checks r = (⟨f.1, f.2⟩, s)
  | some g :: _, h => by
    cases h
    rfl
  | none :: rest, h => checked_of_refused (checks := rest) h

theorem checked_of_passed {r : Answer × State} :
    ∀ {checks : List (Option (Status × List Byte))}, (∀ f ∈ checks, f = none) → checked s checks r = r
  | [], _ => rfl
  | some _ :: _, h => nomatch h _ (.head _)
  | none :: rest, h => checked_of_passed (checks := rest) fun f hf => h f (.tail _ hf)

theorem passed_nil : ∀ f ∈ ([] : List (Option (Status × List Byte))), f = none := nofun

theorem passed_if {cond : Prop} [Decidable cond] {st : Status} {payload : List Byte}
    {rest : List (Option (Status × List Byte))} :
    (∀ f ∈ refusesIf cond st payload :: rest, f = none) ↔ ¬cond ∧ ∀ f ∈ rest, f = none := by
  rw [List.forall_mem_cons, refusesIf, ite_eq_right_iff]
  simp

theorem passed_for {n : Nat} {found : Option (Fin n)} {st : Status} {kind : Byte}
    {rest : List (Option (Status × List Byte))} :
    (∀ f ∈ refusesFor found st kind :: rest, f = none) ↔ found = none ∧ ∀ f ∈ rest, f = none := by
  rw [List.forall_mem_cons, refusesFor, Option.map_eq_none_iff]

/-- A request whose act is its checks and then what it does refuses in the order of the checks (R176, R177). -/
theorem refusesInOrder_of_checked {α : Type} {c : Instr} {code : Byte} {o : α} {act : α → State → Answer × State}
    {checks : List (Option (Status × List Byte))} {r : Answer × State} (hw : s.Working)
    (arm : exec c s = .next (s.request code (.takes o) act)) (h : act o s = checked s checks r) :
    s.RefusesInOrder c code checks := fun _ refused =>
  exec_of_act hw arm (h.trans (checked_of_refused refused))

/-- A request that passes its checks is answered as its act gives (R176). -/
theorem exec_of_checked {α : Type} {c : Instr} {code : Byte} {o : α} {act : α → State → Answer × State}
    {checks : List (Option (Status × List Byte))} {r : Answer × State} (hw : s.Working)
    (arm : exec c s = .next (s.request code (.takes o) act)) (h : act o s = checked s checks r)
    (passed : ∀ f ∈ checks, f = none) : exec c s = .next (s.answered r.2 code r.1.status r.1.payload) :=
  exec_of_act hw arm (h.trans (checked_of_passed passed))

/-! ### What is not acted on changes nothing (R177) -/

/-- An answer that says the request was not acted on comes with the state unchanged. -/
def Quits (s : State) (r : Answer × State) : Prop := r.1.status.actedOn = false → r.2 = s

@[simp] theorem quits_refuse (st : Status) : Quits s (refuse s st) := fun _ => rfl

@[simp] theorem quits_refuseFor (st : Status) (d : Detail) : Quits s (refuseFor s st d) := fun _ => rfl

@[simp] theorem quits_same (a : Answer) : Quits s (a, s) := fun _ => rfl

@[simp] theorem quits_done (t : State) : Quits s (done t) := nofun

@[simp] theorem quits_doneWith (t : State) (payload : List Byte) : Quits s (doneWith t payload) := nofun

@[simp] theorem quits_accepted (t : State) : Quits s (accepted t) := nofun

section requests

variable (s)

theorem quits_select (o : SelectOps) : Quits s (select o s) := by
  unfold select
  split <;> simp

theorem quits_partReset (o : Unit) : Quits s (partReset o s) := by
  unfold partReset
  split_ifs <;> simp

theorem quits_enrolPoint (o : EnrolOps) : Quits s (enrolPoint o s) := by
  unfold enrolPoint
  split
  · split
    · simp
    · split <;> simp
  · simp

theorem quits_bindPoint (n : Nat) : Quits s (bindPoint n s) := by
  unfold bindPoint
  split
  · simp
  · split_ifs
    · simp
    · simp
    · split <;> simp

theorem quits_retirePoint (n : Nat) : Quits s (retirePoint n s) := by
  unfold retirePoint
  split
  · simp
  split
  · simp
  split
  · simp
  · split <;> simp

theorem quits_recaptureRest (n : Nat) : Quits s (recaptureRest n s) := by
  unfold recaptureRest
  split
  · simp
  · split_ifs <;> simp

theorem quits_amendAddress (o : AmendPointOps) (a : Address) : Quits s (amendAddress o a s) := by
  unfold amendAddress
  dsimp only
  split
  · simp
  split
  · simp
  split
  · simp
  split
  · simp
  split
  · simp
  split
  · simp
  · split <;> simp

theorem quits_amendScope (o : AmendPointOps) : Quits s (amendScope o s) := by
  unfold amendScope
  split
  · simp
  split
  · simp
  split
  · simp
  · split <;> simp

theorem quits_amendPoint (o : AmendPointOps) : Quits s (amendPoint o s) := by
  unfold amendPoint
  split
  · simp
  split
  · split
    · exact quits_amendAddress s o _
    · simp
  · exact quits_amendScope s o

theorem quits_findPoint (o : FindOps) : Quits s (findPoint o s) := by
  unfold findPoint
  split <;> simp

theorem quits_defineBody (o : DefineBodyOps) : Quits s (defineBody o s) := by
  unfold defineBody
  split
  · simp
  split
  · simp
  split
  · simp
  · split <;> simp

theorem quits_amendBody (o : AmendBodyOps) : Quits s (amendBody o s) := by
  unfold amendBody
  split
  · simp
  split
  · simp
  split
  · simp
  split
  · simp
  dsimp only
  split
  · simp
  · split <;> simp

theorem quits_retireBody (n : Nat) : Quits s (retireBody n s) := by
  unfold retireBody
  split
  · simp
  · split <;> simp

theorem quits_readBody (n : Nat) : Quits s (readBody n s) := by
  unfold readBody
  split <;> simp

theorem quits_addConstraint (o : AddConstraintOps) : Quits s (addConstraint o s) := by
  unfold addConstraint
  split
  · simp
  split_ifs
  any_goals simp
  split
  · simp
  split
  · simp
  · split <;> simp

theorem quits_amendConstraint (o : AmendConstraintOps) : Quits s (amendConstraint o s) := by
  unfold amendConstraint
  split
  · simp
  dsimp only
  split_ifs
  any_goals simp
  split <;> simp

theorem quits_retireConstraint (n : Nat) : Quits s (retireConstraint n s) := by
  unfold retireConstraint
  split
  · simp
  split_ifs
  any_goals simp
  split <;> simp

theorem quits_readConstraint (n : Nat) : Quits s (readConstraint n s) := by
  unfold readConstraint
  split <;> simp

theorem quits_compile (o : Unit) : Quits s (compile o s) := by
  unfold compile
  split_ifs
  any_goals simp
  split <;> simp

theorem quits_releasePlan (o : Unit) : Quits s (releasePlan o s) := by
  unfold releasePlan
  split
  · simp
  split
  · simp
  split
  · simp
  · split <;> simp

theorem quits_formChecked (g : GroupId) (bs : List BodyId) : Quits s (formChecked g bs s) := by
  unfold formChecked
  split_ifs
  any_goals simp
  split
  · simp
  split
  · simp
  · split <;> simp

theorem quits_formGroup (o : FormGroupOps) : Quits s (formGroup o s) := by
  unfold formGroup
  split
  · split_ifs
    · simp
    · simp
    · exact quits_formChecked s _ _
  · simp

theorem quits_startChecked (g : GroupId) (o : StartOps) : Quits s (startChecked g o s) := by
  unfold startChecked
  split_ifs
  any_goals simp
  split
  · simp
  split
  · simp
  split
  · simp
  · split <;> simp

theorem quits_startRun (o : StartOps) : Quits s (startRun o s) := by
  unfold startRun
  split
  · simp
  split
  · simp
  split
  · simp
  · split
    · simp
    · exact quits_startChecked s _ o

theorem quits_continueRun (n : Nat) : Quits s (continueRun n s) := by
  unfold continueRun
  split
  · simp
  · split_ifs <;> simp

theorem quits_amendTravelChecked (g : GroupId) (o : AmendTravelOps) : Quits s (amendTravelChecked g o s) := by
  unfold amendTravelChecked
  split
  · simp
  · split <;> simp

theorem quits_amendTravel (o : AmendTravelOps) : Quits s (amendTravel o s) := by
  unfold amendTravel
  split
  · simp
  split_ifs
  any_goals simp
  split
  · simp
  · exact quits_amendTravelChecked s _ o

theorem quits_holdGroup (n : Nat) : Quits s (holdGroup n s) := by
  unfold holdGroup
  split
  · simp
  · split_ifs <;> simp

theorem quits_resumeGroup (n : Nat) : Quits s (resumeGroup n s) := by
  unfold resumeGroup
  split
  · simp
  · split_ifs <;> simp

theorem quits_disbandGroup (n : Nat) : Quits s (disbandGroup n s) := by
  unfold disbandGroup
  split
  · simp
  · split_ifs <;> simp

theorem quits_readGroup (n : Nat) : Quits s (readGroup n s) := by
  unfold readGroup
  split <;> simp

theorem quits_jogChecked (p : PointId) (distance : Int) : Quits s (jogChecked p distance s) := by
  unfold jogChecked
  dsimp only
  split
  · simp
  split
  · simp
  split
  · simp
  split
  · simp
  split
  · simp
  split
  · simp
  split
  · simp
  · split <;> simp

theorem quits_jogPoint (o : JogOps) : Quits s (jogPoint o s) := by
  unfold jogPoint
  split
  · simp
  split_ifs
  any_goals simp
  split
  · simp
  · exact quits_jogChecked s _ _

theorem quits_jogCancel (o : Unit) : Quits s (jogCancel o s) := by
  unfold jogCancel
  split
  · simp
  · split <;> simp

theorem quits_clearStop (o : Unit) : Quits s (clearStop o s) := by
  unfold clearStop
  split <;> simp

theorem quits_setLineChecked (l : LineId) (f : LineFunction) (par : LineParameter) (pol : Polarity) :
    Quits s (setLineChecked l f par pol s) := by
  unfold setLineChecked
  dsimp only
  split_ifs <;> simp

theorem quits_setLine (o : SetLineOps) : Quits s (setLine o s) := by
  unfold setLine
  split
  · split
    · simp
    · exact quits_setLineChecked s _ _ _ _
  · simp

theorem quits_setOutput (o : SetOutputOps) : Quits s (setOutput o s) := by
  unfold setOutput
  split
  · simp
  · split_ifs <;> simp

theorem quits_linkReset (n : Nat) : Quits s (linkReset n s) := by
  unfold linkReset
  split
  · simp
  split
  · simp
  split
  · simp
  · split_ifs <;> simp

theorem quits_readLink (n : Nat) : Quits s (readLink n s) := by
  unfold readLink
  split <;> simp

theorem quits_setLimits (o : Limits) : Quits s (setLimits o s) := by
  unfold setLimits
  split_ifs <;> simp

theorem nop_held (ops : Carried Unit) (held : s.phase = .held) : s.nop ops = s := by
  unfold State.nop
  rw [held]

theorem nop_waiting (ops : Carried Unit) {n : Nat} (waiting : s.phase = .waiting n) :
    s.nop ops = { s with port := { s.port with out := .filler } } := by
  unfold State.nop
  rw [waiting]

theorem nop_working (hw : s.Working) :
    s.nop (.takes ()) = { s with port := { s.port with out := .frame s.port.last } } := by
  unfold State.nop
  rw [hw]

theorem discardTransaction_of_released (released : s.phase ≠ .held) :
    s.discardTransaction = { s with port := { s.port with out := .filler } } := by
  unfold State.discardTransaction
  cases phase : s.phase with
  | held => exact absurd phase released
  | waiting => rfl
  | running => rfl

/-- A NOP with operand bytes is a request like any other (log 8). -/
theorem nop_illFormed : s.nop .illFormed = s.request (α := Unit) 0x00 .illFormed fun _ t => done t := by
  unfold State.nop State.request
  cases s.phase <;> rfl

/-- Every command with a request code is a request, whose act changes nothing where it says it did not act. -/
theorem exec_eq_request : ∀ (c : Instr) {code : Byte}, requestCode c = some code →
    ∃ (α : Type) (ops : Carried α) (act : α → State → Answer × State),
      exec c s = .next (s.request code ops act) ∧ ∀ o, Quits s (act o s)
  | .nop .illFormed, _, rfl => ⟨_, _, _, congrArg _ (nop_illFormed s), fun _ => quits_done s⟩
  | .select _, _, rfl => ⟨_, _, _, rfl, quits_select s⟩
  | .partReset _, _, rfl => ⟨_, _, _, rfl, quits_partReset s⟩
  | .enrolPoint _, _, rfl => ⟨_, _, _, rfl, quits_enrolPoint s⟩
  | .bind _, _, rfl => ⟨_, _, _, rfl, quits_bindPoint s⟩
  | .retirePoint _, _, rfl => ⟨_, _, _, rfl, quits_retirePoint s⟩
  | .recaptureRest _, _, rfl => ⟨_, _, _, rfl, quits_recaptureRest s⟩
  | .amendPoint _, _, rfl => ⟨_, _, _, rfl, quits_amendPoint s⟩
  | .readPoint _, _, rfl => ⟨_, _, _, rfl, fun _ => quits_doneWith s _⟩
  | .findPoint _, _, rfl => ⟨_, _, _, rfl, quits_findPoint s⟩
  | .defineBody _, _, rfl => ⟨_, _, _, rfl, quits_defineBody s⟩
  | .amendBody _, _, rfl => ⟨_, _, _, rfl, quits_amendBody s⟩
  | .retireBody _, _, rfl => ⟨_, _, _, rfl, quits_retireBody s⟩
  | .readBody _, _, rfl => ⟨_, _, _, rfl, quits_readBody s⟩
  | .addConstraint _, _, rfl => ⟨_, _, _, rfl, quits_addConstraint s⟩
  | .amendConstraint _, _, rfl => ⟨_, _, _, rfl, quits_amendConstraint s⟩
  | .retireConstraint _, _, rfl => ⟨_, _, _, rfl, quits_retireConstraint s⟩
  | .readConstraint _, _, rfl => ⟨_, _, _, rfl, quits_readConstraint s⟩
  | .compile _, _, rfl => ⟨_, _, _, rfl, quits_compile s⟩
  | .releasePlan _, _, rfl => ⟨_, _, _, rfl, quits_releasePlan s⟩
  | .readPlan _, _, rfl => ⟨_, _, _, rfl, fun _ => quits_doneWith s _⟩
  | .formGroup _, _, rfl => ⟨_, _, _, rfl, quits_formGroup s⟩
  | .start _, _, rfl => ⟨_, _, _, rfl, quits_startRun s⟩
  | .continue_ _, _, rfl => ⟨_, _, _, rfl, quits_continueRun s⟩
  | .amendTravel _, _, rfl => ⟨_, _, _, rfl, quits_amendTravel s⟩
  | .hold _, _, rfl => ⟨_, _, _, rfl, quits_holdGroup s⟩
  | .resume _, _, rfl => ⟨_, _, _, rfl, quits_resumeGroup s⟩
  | .disband _, _, rfl => ⟨_, _, _, rfl, quits_disbandGroup s⟩
  | .readGroup _, _, rfl => ⟨_, _, _, rfl, quits_readGroup s⟩
  | .jog _, _, rfl => ⟨_, _, _, rfl, quits_jogPoint s⟩
  | .jogCancel _, _, rfl => ⟨_, _, _, rfl, quits_jogCancel s⟩
  | .stop _, _, rfl => ⟨_, _, _, rfl, fun _ => quits_done _⟩
  | .clearStop _, _, rfl => ⟨_, _, _, rfl, quits_clearStop s⟩
  | .readJog _, _, rfl => ⟨_, _, _, rfl, fun _ => quits_doneWith s _⟩
  | .setLine _, _, rfl => ⟨_, _, _, rfl, quits_setLine s⟩
  | .setOutput _, _, rfl => ⟨_, _, _, rfl, quits_setOutput s⟩
  | .readLines _, _, rfl => ⟨_, _, _, rfl, fun _ => quits_doneWith s _⟩
  | .linkReset _, _, rfl => ⟨_, _, _, rfl, quits_linkReset s⟩
  | .readLink _, _, rfl => ⟨_, _, _, rfl, quits_readLink s⟩
  | .readAttention _, _, rfl => ⟨_, _, _, rfl, fun _ => quits_doneWith s _⟩
  | .clearAttention _, _, rfl => ⟨_, _, _, rfl, fun _ => quits_done _⟩
  | .setEnables _, _, rfl => ⟨_, _, _, rfl, fun _ => quits_done _⟩
  | .setLimits _, _, rfl => ⟨_, _, _, rfl, quits_setLimits s⟩
  | .lockLimits _, _, rfl => ⟨_, _, _, rfl, fun _ => quits_done _⟩
  | .readLimits _, _, rfl => ⟨_, _, _, rfl, fun _ => quits_doneWith s _⟩
  | .readIdentity _, _, rfl => ⟨_, _, _, rfl, fun _ => quits_doneWith s _⟩
  | .unknown _, _, rfl => ⟨_, _, _, rfl, fun _ => quits_refuse _⟩
  | .frameError _, _, rfl => ⟨_, _, _, rfl, fun _ => quits_refuse _⟩

end requests

/-- Settles O13: the response is written by `State.request`, and no request's act writes where it refuses. -/
theorem refusedRequestsChangeNothing : Obligations.RefusedRequestsChangeNothing := by
  intro s t c code hw named next
  obtain ⟨α, ops, act, arm, quits⟩ := exec_eq_request s c named
  rw [arm] at next
  cases ops with
  | illFormed =>
    rw [request_illFormed s hw] at next
    cases next
    exact ⟨rfl, rfl, fun _ => rfl⟩
  | takes o =>
    rw [request_takes s hw] at next
    cases next
    refine ⟨rfl, rfl, fun refused => ?_⟩
    rw [quits o refused]
    rfl

/-- Settles O14: ill-formed operands are refused at the range stage whatever the request, and the phase comes first. -/
theorem requestsNotTaken : Obligations.RequestsNotTaken := by
  refine ⟨fun s hw c hc => ?illFormed, fun s c hc => ⟨fun held => ?held, fun n waiting => ?waiting⟩⟩
  case illFormed =>
    have refused {α : Type} (code : Byte) (act : α → State → Answer × State) :
        Host.Outcome.next (s.request code .illFormed act) =
          (.next (s.answered s code .refusedRange []) : Host.Outcome State Fault Refusal) :=
      congrArg _ (request_illFormed s hw code act)
    have nop : exec (.nop .illFormed) s = .next (s.answered s 0x00 .refusedRange []) :=
      (congrArg _ (nop_illFormed s)).trans (refused _ _)
    unfold illFormedRequests at hc
    rcases List.mem_cons.1 hc with rfl | hc
    · exact ⟨0x00, rfl, nop⟩
    · simp only [List.mem_cons, List.not_mem_nil, or_false] at hc
      rcases hc with rfl | rfl | rfl | rfl | rfl | rfl | rfl | rfl | rfl | rfl | rfl | rfl | rfl | rfl | rfl | rfl | rfl
        | rfl | rfl | rfl | rfl | rfl | rfl | rfl | rfl | rfl | rfl | rfl | rfl | rfl | rfl | rfl | rfl | rfl | rfl | rfl
        | rfl | rfl | rfl | rfl | rfl | rfl | rfl | rfl | rfl
      all_goals exact ⟨_, rfl, refused _ _⟩
  case held =>
    rcases hc with rfl | ⟨code, named⟩
    · exact congrArg Host.Outcome.next (nop_held s _ held)
    · obtain ⟨α, ops, act, arm, _⟩ := exec_eq_request s c named
      rw [arm, request_held s held]
  case waiting =>
    rcases hc with rfl | ⟨code, named⟩
    · exact congrArg Host.Outcome.next (nop_waiting s _ waiting)
    · obtain ⟨α, ops, act, arm, _⟩ := exec_eq_request s c named
      rw [arm, request_waiting s waiting]

/-- Settles O16: each is an arm of `State.nop`, `State.answerOnly` or `State.discardTransaction`. -/
theorem framesThatCarryNoRequest : Obligations.FramesThatCarryNoRequest := by
  exact ⟨fun s hw => congrArg Host.Outcome.next (nop_working s hw),
    fun s code hw => exec_of_act (act := fun _ t => refuse t .unknown) hw rfl rfl,
    fun s first hw => exec_of_act (act := fun _ t => refuse t .frameError) hw rfl rfl,
    fun s released => congrArg Host.Outcome.next (discardTransaction_of_released s released)⟩

/-! ### The read requests (R17, R44, R71, R72, R93, R139, R152, R171, R195, R199) -/

theorem readBody_val (b : BodyId) : readBody b.val s = doneWith s (bodyPayload s b) := by
  rw [readBody, fin?_val]

theorem readConstraint_val (c : ConstraintId) : readConstraint c.val s = doneWith s (constraintPayload s c) := by
  rw [readConstraint, fin?_val]

theorem readGroup_val (g : GroupId) : readGroup g.val s = doneWith s (groupPayload s g) := by
  rw [readGroup, fin?_val]

theorem readLink_val (l : LinkId) : readLink l.val s = doneWith s (linkPayload s l) := by
  rw [readLink, fin?_val]

/-- Settles O19: each read request's act is its payload, or a refusal where the id names nothing. -/
theorem readRequestsAnswer : Obligations.ReadRequestsAnswer := by
  intro s hw
  refine ⟨exec_of_act (act := readPoint) hw rfl rfl, fun b => exec_of_act hw rfl (readBody_val b),
    fun c => exec_of_act hw rfl (readConstraint_val c), exec_of_act (act := readPlan) hw rfl rfl,
    fun g => exec_of_act hw rfl (readGroup_val g), exec_of_act (act := readJog) hw rfl rfl,
    exec_of_act (act := readLines) hw rfl rfl, fun l => exec_of_act hw rfl (readLink_val l),
    exec_of_act (act := readAttention) hw rfl rfl, exec_of_act (act := readIdentity) hw rfl rfl,
    fun n => ⟨fun out => ?body, fun out => ?constraint, fun out => ?group, fun out => ?link⟩⟩
  case body =>
    exact exec_of_act (act := readBody) (r := refuse s .refusedRange) hw rfl (by rw [readBody, fin?_of_not_lt (by omega)])
  case constraint =>
    exact exec_of_act (act := readConstraint) (r := refuse s .refusedRange) hw rfl
      (by rw [readConstraint, fin?_of_not_lt (by omega)])
  case group =>
    exact exec_of_act (act := readGroup) (r := refuse s .refusedRange) hw rfl
      (by rw [readGroup, fin?_of_not_lt (by omega)])
  case link =>
    exact exec_of_act (act := readLink) (r := refuse s .refusedRange) hw rfl
      (by rw [readLink, fin?_of_not_lt (by omega)])

end Sys2Proof.Machine
end

section

/-! The port's own commands, PART-RESET, the reset pin, and FIND-POINT (R45, R178, R180, R181, R200). -/
namespace Sys2Proof.Machine

variable {s : State}

/-! ### SELECT (R178) -/

theorem select_of_focus {o : SelectOps} {f : PointId} (h : f.val = o.focus.getD s.port.focus.val) :
    select o s = doneWith { s with port := { s.port with focus := f, scope := o.scope.getD s.port.scope } }
      [byte f.val, byte (Scope.code (o.scope.getD s.port.scope))] := by
  have named : focus? o s.port.focus = some f := by
    unfold focus?
    cases given : o.focus with
    | none =>
      rw [given] at h
      exact congrArg some (Fin.ext h).symm
    | some n =>
      rw [given, Option.getD_some] at h
      exact h ▸ fin?_val f
  rw [select, named]

theorem select_of_focus_out {o : SelectOps} {n : Nat} (given : o.focus = some n) (out : 48 ≤ n) :
    select o s = refuse s .refusedRange := by
  have none : focus? o s.port.focus = none := by
    unfold focus?
    rw [given]
    exact fin?_of_not_lt (Nat.not_lt.2 out)
  rw [select, none]

theorem scope?_eq_none {b : Byte} (low : 4 ≤ b.toNat) (high : b.toNat ≤ 254) : scope? b = none := by
  unfold scope?
  split <;> first | rfl | omega

theorem corner?_eq_none {b : Byte} (low : 4 ≤ b.toNat) : corner? b = none := by
  unfold corner?
  split <;> first | rfl | omega

/-! ### FIND-POINT (R45) -/

/-- A search that one id alone passes finds it. -/
theorem find?_ids_eq_some_of_unique {n : Nat} {test : Fin n → Bool} {i : Fin n} (passes : test i = true)
    (unique : ∀ j, test j = true → j = i) : (ids n).find? test = some i :=
  find?_ids_eq_some_iff.2 ⟨passes, fun j below => Bool.eq_false_iff.2 fun h => (Fin.ne_of_lt below) (unique j h)⟩

theorem address?_eq_none {a : AddressOp} (out : ¬(a.link ≤ 3 ∧ 1 ≤ a.node ∧ a.node ≤ 15)) : address? a = none := by
  unfold address?
  refine if_neg fun ok => out ?_
  simp only [AddressOp.ok, within, Bool.and_eq_true, decide_eq_true_eq] at ok
  omega

theorem findPoint_out {o : FindOps} (h : s.find o = none) : findPoint o s = refuse s .refusedRange := by
  rw [findPoint, h]

theorem findPoint_notFound {o : FindOps} (h : s.find o = some none) : findPoint o s = (⟨.notFound, []⟩, s) := by
  rw [findPoint, h]

theorem findPoint_found {o : FindOps} {p : PointId} (h : s.find o = some (some p)) :
    findPoint o s = doneWith { s with port := { s.port with focus := p } } [0x01, byte p.val] := by
  rw [findPoint, h]
  rfl

theorem holderOf_of_unique {p : PointId} {a : Address} (unique : s.AddressesUnique) (enrolled : (s.point p).life ≠ .vacant)
    (at_ : (s.point p).address = some a) : s.holderOf a = some p :=
  find?_ids_eq_some_of_unique (by simp [enrolled, at_]) fun q h => by
    simp only [Bool.and_eq_true, bne_iff_ne, beq_iff_eq] at h
    exact unique.freeFor at_ q h.1 h.2

theorem holderOf_eq_none {a : Address} (free : ∀ p, (s.point p).life ≠ .vacant → (s.point p).address ≠ some a) :
    s.holderOf a = none :=
  find?_ids_eq_none_iff.2 fun p => by simpa [imp_iff_not_or] using free p

theorem pointAtCorner_of_body {b : BodyId} {x : Body} (seats : s.SeatsMatch) (held : s.body b = some x) (c : Corner) :
    s.pointAtCorner b c = some (x.corner c) := by
  obtain ⟨named, seated, _⟩ := seats
  refine find?_ids_eq_some_of_unique (by simp [named b x c held]) fun p h => ?_
  obtain ⟨y, hy, at_⟩ := seated p ⟨b, c⟩ (beq_iff_eq.1 h)
  cases held.symm.trans hy
  exact at_.symm

theorem pointAtCorner_of_empty {b : BodyId} (seats : s.SeatsMatch) (empty : s.body b = none) (c : Corner) :
    s.pointAtCorner b c = none :=
  find?_ids_eq_none_iff.2 fun p => beq_eq_false_iff_ne.2 fun h => by
    obtain ⟨y, hy, _⟩ := seats.2.1 p ⟨b, c⟩ h
    cases empty.symm.trans hy

/-- Settles O15: SELECT by its focus operand, FIND-POINT by what its lookup finds. -/
theorem selectorRequests : Obligations.SelectorRequests := by
  refine ⟨fun s o f hw given => exec_of_act hw rfl (select_of_focus given),
    fun s o n hw given out => exec_of_act hw rfl (select_of_focus_out given out), fun s focus scope hw low high => ?scope,
    fun s a hw out => ?address, fun s n c hw out => ?body, fun s body corner hw low => ?corner,
    fun s p a hw unique node enrolled at_ => ?found, fun s a hw node free => ?free,
    fun s b x c hw seats held => ?seated, fun s b c hw seats empty => ?unseated⟩
  case scope =>
    have undecoded : decodeRequest 0x01 [focus, scope] = .select .illFormed := by
      show Instr.select (carry (decodeSelect [focus, scope])) = _
      rw [decodeSelect, scope?_eq_none low high]
      rfl
    rw [undecoded]
    exact congrArg Host.Outcome.next (request_illFormed s hw 0x01 select)
  case address =>
    have find : s.find (.byAddress a) = none := by rw [State.find, address?_eq_none out]; rfl
    exact exec_of_act hw rfl (findPoint_out find)
  case body =>
    have find : s.find (.byCorner n c) = none := by rw [State.find, fin?_of_not_lt (Nat.not_lt.2 out)]; rfl
    exact exec_of_act hw rfl (findPoint_out find)
  case corner =>
    have undecoded : decodeRequest 0x16 [0x01, body, corner] = .findPoint .illFormed := by
      show Instr.findPoint (carry ((corner? corner).map (FindOps.byCorner body.toNat))) = _
      rw [corner?_eq_none low]
      rfl
    rw [undecoded]
    exact congrArg Host.Outcome.next (request_illFormed s hw 0x16 findPoint)
  case found =>
    have find : s.find (.byAddress ⟨a.link.val, a.node.val⟩) = some (some p) := by
      rw [State.find, address?_val a node, Option.map_some, holderOf_of_unique unique enrolled at_]
    exact exec_of_act hw rfl (findPoint_found find)
  case free =>
    have find : s.find (.byAddress ⟨a.link.val, a.node.val⟩) = some none := by
      rw [State.find, address?_val a node, Option.map_some, holderOf_eq_none free]
    exact exec_of_act hw rfl (findPoint_notFound find)
  case seated =>
    have find : s.find (.byCorner b.val c) = some (some (x.corner c)) := by
      rw [State.find, fin?_val, Option.map_some, pointAtCorner_of_body seats held]
    exact exec_of_act hw rfl (findPoint_found find)
  case unseated =>
    have find : s.find (.byCorner b.val c) = some none := by
      rw [State.find, fin?_val, Option.map_some, pointAtCorner_of_empty seats empty]
    exact exec_of_act hw rfl (findPoint_notFound find)

/-! ### PART-RESET and the pin (R180, R181, R200) -/

/-- A part that was reset has nothing to settle: its links are no part of what the derived fields follow. -/
theorem settled_partReset (s : State) : s.partReset.Settled :=
  State.settled_initial s.pins s.limits s.limitsLock .running s.port.out s.pending s.choices

theorem engine_partReset (s : State) (l : LinkId) : s.partReset.engine l = (s.engine l).partReset :=
  Table.at_mapAll _ _ l

theorem partReset_of_not_open (h : ¬s.PlanOpen) : partReset () s = refuse s .refusedState := by
  unfold partReset
  split
  · rfl
  split
  · rfl
  next inService compiling => exact absurd ⟨inService, compiling⟩ h

/-- Settles O17: the accepted request is `State.partReset`, which is settled. -/
theorem partResetResult : Obligations.PartResetResult := by
  refine ⟨fun s hw open_ => ⟨s.answered s.partReset 0x02 .done [], ?answer, ?points, ?bodies, ?constraints, rfl, ?links,
    fun _ _ _ _ _ _ => ⟨rfl, rfl⟩, ?skew, ?groups, rfl, rfl, ?lines, ?flags, rfl, rfl, rfl, rfl, rfl, rfl, hw.symm, rfl,
    rfl⟩, fun s hw closed => exec_of_act hw rfl (partReset_of_not_open closed)⟩
  case answer =>
    rw [exec_partReset hw (partReset_of_planOpen open_), State.settle_of_settled (settled_partReset s)]
    rfl
  case points => exact State.point_initial s.pins s.limits s.limitsLock .running s.port.out s.pending s.choices
  case bodies => exact State.body_initial s.pins s.limits s.limitsLock .running s.port.out s.pending s.choices
  case constraints => exact State.constraint_initial s.pins s.limits s.limitsLock .running s.port.out s.pending s.choices
  case links => exact engine_partReset s
  case skew => exact State.skew_initial s.pins s.limits s.limitsLock .running s.port.out s.pending s.choices
  case groups => exact State.group_initial s.pins s.limits s.limitsLock .running s.port.out s.pending s.choices
  case lines => exact State.line_initial s.pins s.limits s.limitsLock .running s.port.out s.pending s.choices
  case flags => exact State.isSet_initial s.pins s.limits s.limitsLock .running s.port.out s.pending s.choices

theorem releasePin_of_held (held : s.phase = .held) : s.releasePin = { s with phase := .waiting 2000 } := by
  unfold State.releasePin
  rw [held]
  rfl

theorem endWait_of_waiting {n : Nat} (waiting : s.phase = .waiting n) :
    s.endWait = { s with lines := s.lines.mapAll fun l x => x.sample (s.pins.at l), phase := .running } := by
  unfold State.endWait
  rw [waiting]

/-- Settles O18: each command of the pin is read off by the phase it finds. -/
theorem resetPinAndStartUp : Obligations.ResetPinAndStartUp :=
  ⟨fun _ => rfl, fun _ held => congrArg Host.Outcome.next (releasePin_of_held held),
    fun _ _ waiting => ⟨_, congrArg Host.Outcome.next (endWait_of_waiting waiting), rfl, Table.at_mapAll _ _⟩⟩

end Sys2Proof.Machine
end

section

/-! The payloads of the read requests (R17, R71, R72, R93, R139, R152, R171, R188, R195) and the encodings of their fields
(R182), one lemma for each clause. -/
namespace Sys2Proof.Machine

variable {s : State}

/-! ### The encodings (R182) -/

theorem byte_congr {n m : Nat} (h : n % 256 = m % 256) : byte n = byte m :=
  BitVec.eq_of_toNat_eq (by simpa [byte] using h)

/-- A signed height takes two bytes. -/
theorem encSigned_two (o : Option Int) : ∃ a b, encSigned o = [a, b] := by
  cases o <;> exact ⟨_, _, rfl⟩

theorem encSigned_of_in_range {v : Int} (h : v.natAbs ≤ 32767) :
    encSigned (some v) = [byte ((v % 65536).toNat / 256), byte (v % 65536).toNat] := by
  have unclamped : max (-32767) (min 32767 v) = v := by omega
  rw [encSigned, unclamped]
  rfl

theorem encSigned_of_high {v : Int} (h : 32767 < v) : encSigned (some v) = [0x7F, 0xFF] := by
  have clamped : max (-32767) (min 32767 v) = 32767 := by omega
  rw [encSigned, clamped]
  rfl

theorem encSigned_of_low {v : Int} (h : v < -32767) : encSigned (some v) = [0x80, 0x01] := by
  have clamped : max (-32767) (min 32767 v) = -32767 := by omega
  rw [encSigned, clamped]
  rfl

/-- A list of one byte for each item is sent as its count and those bytes (R183). -/
theorem encList_byte {α : Type} (l : List α) (f : α → Byte) : (encList l fun a => [f a]) = byte l.length :: l.map f := by
  exact congrArg (byte l.length :: ·) (List.flatMap_pure_eq_map f l)

/-- The four bytes of a mask (R182). -/
theorem encMask32_eq (m : BitVec 26) : encMask32 m =
    [byte (m.toNat / 16777216), byte (m.toNat / 65536), byte (m.toNat / 256), byte m.toNat] := by
  have top : m.toNat / 65536 / 256 = m.toNat / 16777216 := by omega
  have third : byte (m.toNat % 65536 / 256) = byte (m.toNat / 256) := byte_congr (by omega)
  have last : byte (m.toNat % 65536) = byte m.toNat := byte_congr (by omega)
  show [byte _, byte _, byte _, byte _] = _
  rw [top, third, last]

/-- Only the head of a queue is sent with its attempts (R93; log 16). -/
theorem flatMap_zipIdx_rest {α : Type} (l : List α) (f : α → List Byte) (a : List Byte) : ∀ k, 0 < k →
    ((l.zipIdx k).flatMap fun q => f q.1 ++ if q.2 = 0 then a else []) = l.flatMap f := by
  induction l with
  | nil => exact fun _ _ => rfl
  | cons x l ih =>
    intro k pos
    rw [List.zipIdx_cons, List.flatMap_cons, List.flatMap_cons, ih (k + 1) (Nat.succ_pos k),
      if_neg (Nat.ne_of_gt pos), List.append_nil]

/-! ### The layouts -/

theorem pointPayload_of_vacant {p : PointId} (h : (s.point p).life = .vacant) :
    pointPayload s p = [byte p.val, 0x00] := by
  unfold pointPayload
  dsimp only
  rw [if_pos h, h]
  rfl

/-- The payload of an enrolled point in seven parts of fixed length, and its index. -/
theorem pointPayload_parts {p : PointId} (h : (s.point p).life ≠ .vacant) :
    let x := s.point p
    pointPayload s p =
      [byte p.val, byte x.life.code, encAddress x.address, encId (x.seat.map (·.body)),
        encSmall (x.seat.map (·.corner.code)), byte x.health.code, byte x.bindOutcome.code]
      ++ ((encHeight x.ratedCapacity ++ encHeight x.ratedStroke ++ [encSmall x.nodeClass])
      ++ ((encHeight x.derated ++ encHeight x.rest ++ encHeight x.height ++ encHeight x.load)
      ++ ([byte x.flags.toNat, byte x.missed, encBool x.inhibit, encId x.group]
      ++ ((encHeight x.base ++ encHeight x.target)
      ++ ([byte (boolCode x.arrived + 2 * boolCode x.followHeld), byte x.permit.code, byte x.conditions.toNat]
      ++ ((encSigned x.lift ++ [encBool (s.raised p), byte x.index.length])
      ++ x.index.map fun c => byte c.val)))))) := by
  dsimp only
  unfold pointPayload
  dsimp only
  rw [if_neg h, encList_byte]
  simp only [List.append_assoc, List.cons_append, List.nil_append]

/-- Parts of the lengths of a point's payload are found at their offsets. -/
theorem parts_at_offsets {a b c d e f g t : List Byte} (ha : a.length = 7) (hb : b.length = 5) (hc : c.length = 8)
    (hd : d.length = 4) (he : e.length = 4) (hf : f.length = 3) (hg : g.length = 4) :
    let y := a ++ (b ++ (c ++ (d ++ (e ++ (f ++ (g ++ t))))))
    y.length = 35 + t.length ∧ y.take 7 = a ∧ (y.drop 7).take 5 = b ∧ (y.drop 12).take 8 = c ∧ (y.drop 20).take 4 = d
      ∧ (y.drop 24).take 4 = e ∧ (y.drop 28).take 3 = f ∧ (y.drop 31).take 4 = g ∧ y.drop 35 = t := by
  refine ⟨?length, ?_⟩
  case length =>
    simp only [List.length_append, ha, hb, hc, hd, he, hf, hg]
    omega
  · simp [List.drop_append, List.drop_of_length_le, ha, hb, hc, hd, he, hf, hg]

theorem length_encSigned (o : Option Int) : (encSigned o).length = 2 := by
  obtain ⟨a, b, eq⟩ := encSigned_two o
  rw [eq]
  rfl

theorem pointPayload_of_enrolled {p : PointId} (h : (s.point p).life ≠ .vacant) :
    let x := s.point p
    let y := pointPayload s p
    y.length = 35 + x.index.length
      ∧ y.take 7 = [byte p.val, byte x.life.code, encAddress x.address, encId (x.seat.map (·.body)),
          encSmall (x.seat.map (·.corner.code)), byte x.health.code, byte x.bindOutcome.code]
      ∧ (y.drop 7).take 5 = encHeight x.ratedCapacity ++ encHeight x.ratedStroke ++ [encSmall x.nodeClass]
      ∧ (y.drop 12).take 8 = encHeight x.derated ++ encHeight x.rest ++ encHeight x.height ++ encHeight x.load
      ∧ (y.drop 20).take 4 = [byte x.flags.toNat, byte x.missed, encBool x.inhibit, encId x.group]
      ∧ (y.drop 24).take 4 = encHeight x.base ++ encHeight x.target
      ∧ (y.drop 28).take 3 =
          [byte (boolCode x.arrived + 2 * boolCode x.followHeld), byte x.permit.code, byte x.conditions.toNat]
      ∧ (y.drop 31).take 4 = encSigned x.lift ++ [encBool (s.raised p), byte x.index.length]
      ∧ y.drop 35 = x.index.map fun c => byte c.val := by
  dsimp only
  rw [pointPayload_parts h]
  have seven : (encSigned (s.point p).lift ++ [encBool (s.raised p), byte (s.point p).index.length]).length = 4 := by
    rw [List.length_append, length_encSigned]
    rfl
  have found := parts_at_offsets (t := (s.point p).index.map fun c => byte c.val)
    (a := [byte p.val, byte (s.point p).life.code, encAddress (s.point p).address, encId ((s.point p).seat.map (·.body)),
      encSmall ((s.point p).seat.map (·.corner.code)), byte (s.point p).health.code, byte (s.point p).bindOutcome.code])
    (b := encHeight (s.point p).ratedCapacity ++ encHeight (s.point p).ratedStroke ++ [encSmall (s.point p).nodeClass])
    (c := encHeight (s.point p).derated ++ encHeight (s.point p).rest ++ encHeight (s.point p).height
      ++ encHeight (s.point p).load)
    (d := [byte (s.point p).flags.toNat, byte (s.point p).missed, encBool (s.point p).inhibit, encId (s.point p).group])
    (e := encHeight (s.point p).base ++ encHeight (s.point p).target)
    (f := [byte (boolCode (s.point p).arrived + 2 * boolCode (s.point p).followHeld), byte (s.point p).permit.code,
      byte (s.point p).conditions.toNat]) rfl rfl rfl rfl rfl rfl seven
  rw [List.length_map] at found
  exact found

theorem bodyPayload_of_empty {b : BodyId} (h : s.body b = none) : bodyPayload s b = [0x00] := by
  rw [bodyPayload, h]

theorem bodyPayload_of_defined {b : BodyId} {x : Body} (h : s.body b = some x) :
    let y := bodyPayload s b
    y.length = 33
      ∧ y.take 6 = [byte x.position.val, byte x.joint.code, byte x.ll.val, byte x.lr.val, byte x.tl.val, byte x.tr.val]
      ∧ (y.drop 6).take 7 = encHeight (some x.side) ++ encHeight (some x.end_) ++ encHeight (some x.twist)
          ++ [encId x.group]
      ∧ (y.drop 13).take 4 = [byte (s.trailingJoint x).code, encId ((s.leadingNeighbour x).map (·.1)),
          encId ((s.trailingNeighbour x).map (·.1)),
          encBool (s.raised x.ll || s.raised x.lr || s.raised x.tl || s.raised x.tr)]
      ∧ ∀ c, ((y.drop 17).drop (4 * Corner.code c)).take 4 =
          byte (s.point (x.corner c)).health.code :: encSigned (s.point (x.corner c)).lift
            ++ [encBool (s.raised (x.corner c))] := by
  have raised : s.bodyRaised x = (s.raised x.ll || s.raised x.lr || s.raised x.tl || s.raised x.tr) := by
    simp [State.bodyRaised, Body.corners, Bool.or_assoc]
  obtain ⟨_, _, ll⟩ := encSigned_two (s.point x.ll).lift
  obtain ⟨_, _, lr⟩ := encSigned_two (s.point x.lr).lift
  obtain ⟨_, _, tl⟩ := encSigned_two (s.point x.tl).lift
  obtain ⟨_, _, tr⟩ := encSigned_two (s.point x.tr).lift
  dsimp only
  rw [bodyPayload, h]
  simp only [raised, ll, lr, tl, tr, encHeight, be16, Body.corners, List.flatMap_cons, List.flatMap_nil, List.map_cons,
    List.map_nil, List.cons_append, List.nil_append]
  refine ⟨rfl, rfl, rfl, rfl, fun c => ?_⟩
  cases c <;> simp [Body.corner, Corner.code, ll, lr, tl, tr]

theorem lifeCode_eq (k : Kind) : byte k.lifeCode = if k = .custom then 2 else 1 := by
  cases k <;> rfl

theorem constraintPayload_of_some {c : ConstraintId} {x : Constraint} (h : s.constraint c = some x) :
    constraintPayload s c =
      [if x.kind = .custom then 2 else 1, byte x.kind.code, byte x.terms.points.length]
      ++ x.terms.points.map (fun p => byte p.val)
      ++ encHeight (some x.limit) ++ [byte x.warn] ++ encHeight (some (x.limit * x.warn / 100))
      ++ [byte x.state.code] ++ encSigned x.last ++ [encId x.origin] := by
  rw [constraintPayload, h]
  dsimp only
  rw [encList_byte, lifeCode_eq]
  rfl

theorem encOffending_eq (o : Option Offending) : encOffending o = match o with
    | none => 0xFF
    | some (.point p) => byte p.val
    | some (.body b) => byte b.val
    | some (.constraint c) => byte c.val := by
  rcases o with _ | _ | _ | _ <;> rfl

theorem groupPayload_of_free {g : GroupId} (h : (s.group g).state = .free) : groupPayload s g = [0x00] := by
  unfold groupPayload
  dsimp only
  rw [if_pos h, h]
  rfl

theorem groupPayload_of_not_free {g : GroupId} (h : (s.group g).state ≠ .free) :
    let x := s.group g
    groupPayload s g =
      [byte x.state.code, byte x.members.length] ++ x.members.map (fun b => byte b.val)
      ++ encSigned (x.run.map (·.travel)) ++ encHeight (x.run.map (·.step)) ++ [encSmall (x.run.map (·.gap))]
      ++ encHeight (x.run.map (·.count)) ++ encHeight (x.run.map (·.done)) ++ encHeight (x.run.map (·.completed))
      ++ [encSmall (x.heldFrom.map (·.code)), byte (x.causes.toNat / 256), byte x.causes.toNat]
      ++ encHeight (x.timer.map fun us => (us + 999999) / 1000000)
      ++ [byte (s.members g).length]
      ++ (s.members g).flatMap fun p =>
          let y := s.point p
          [byte p.val, byte y.health.code, encBool y.arrived, encBool y.followHeld]
          ++ encHeight y.base ++ encHeight y.target ++ [byte y.permit.code]
          ++ encSigned (x.run.bind fun r => y.base.map fun _ => y.progress r.travel) := by
  dsimp only
  unfold groupPayload
  dsimp only
  rw [if_neg h, encList_byte, encList]
  refine (List.append_cons _ _ _).trans
    (congrArg₂ List.append ?_ (congrArg (fun f => List.flatMap f (s.members g)) (funext fun p => ?_)))
  · simp only [be16, List.append_assoc, List.cons_append, List.nil_append]
    rfl
  · cases (s.group g).run with
    | none => rfl
    | some r => cases (s.point p).base <;> rfl

theorem jogPayload_of_active {j : ActiveJog} (h : s.jog.active = some j) :
    jogPayload s =
      [0x01, byte s.jog.outcome.code, encId s.jog.last, byte j.point.val] ++ encSigned (some j.distance)
      ++ encHeight (some j.start) ++ encHeight (s.point j.point).target ++ encHeight (s.point j.point).height
      ++ encSigned (some ((((s.point j.point).height.getD 0 : Int) - (j.start : Int)) * j.distance.sign))
      ++ encHeight (some ((j.timer + 999999) / 1000000)) := by
  rw [jogPayload, h]
  simp only [List.append_assoc, List.cons_append, List.nil_append]
  rfl

/-- A line's part of READ-LINES's payload, by its kind (R171). -/
theorem linesPayload_line (l : LineId) :
    [byte (s.line l).function.code, byte (s.line l).parameter.code, byte (s.line l).polarity.code]
      ++ (if (s.line l).function.isInput then
          [encSmall ((s.line l).debounced.map (·.code)), encBool (s.line l).asserted, byte (s.pins.at l).code,
            encBool (s.line l).timer.isSome]
        else encBool (s.outputActive (s.line l)) ::
          (if (s.line l).function = .generalOut then [encSmall ((s.line l).output.map boolCode)] else [])) =
    [byte (s.line l).function.code, byte (s.line l).parameter.code, byte (s.line l).polarity.code]
      ++ (if (s.line l).function.isInput = true then
          [encSmall ((s.line l).debounced.map (·.code)), encBool (s.line l).asserted, byte (s.pins.at l).code,
            encBool (s.line l).timer.isSome]
        else if (s.line l).function = .generalOut then
          [encBool (s.outputActive (s.line l)), encSmall ((s.line l).output.map boolCode)]
        else [encBool (s.outputActive (s.line l))]) := by
  congr 1
  split_ifs <;> rfl

theorem linkPayload_eq (l : LinkId) :
    let e := s.engine l
    linkPayload s l =
      [byte e.link.code] ++ encHeight (if e.link = .resetting then e.breakLeft else none)
      ++ [encBool e.stopPending, byte e.roster.length]
      ++ e.roster.flatMap (fun r =>
          [byte r.node.val, byte r.point.val, byte (s.point r.point).health.code, byte (s.point r.point).missed,
           byte r.goodRun])
      ++ (match e.queue with
          | [] => [0x00]
          | p :: rest =>
            [byte (rest.length + 1), byte p.val, byte (s.point p).nodeOf, byte e.attempts]
            ++ rest.flatMap fun q => [byte q.val, byte (s.point q).nodeOf])
      ++ [byte (e.roster.length + if e.queue = [] then 0 else 1)] := by
  dsimp only
  unfold linkPayload Engine.cycleLength encList
  dsimp only
  cases (s.engine l).queue with
  | nil =>
    simp only [List.zipIdx_nil, List.length_nil, List.isEmpty_nil, List.flatMap_nil, List.append_assoc, List.cons_append,
      List.nil_append]
    rfl
  | cons p rest =>
    rw [List.zipIdx_cons, List.flatMap_cons,
      flatMap_zipIdx_rest rest (fun q => [byte q.val, byte (s.point q).nodeOf]) [byte (s.engine l).attempts] _
        (Nat.succ_pos 0)]
    simp [encHeight, be16]

theorem attentionPayload_eq (s : State) : attentionPayload s =
    [byte (s.attention.flags.toNat / 16777216), byte (s.attention.flags.toNat / 65536),
     byte (s.attention.flags.toNat / 256), byte s.attention.flags.toNat,
     byte (s.attention.enables.toNat / 16777216), byte (s.attention.enables.toNat / 65536),
     byte (s.attention.enables.toNat / 256), byte s.attention.enables.toNat]
    ++ (ids 4).map fun g =>
        encBool (s.attention.isSet (.stage g) || s.attention.isSet (.gap g) || s.attention.isSet (.arrived g)
          || s.attention.isSet (.held g)) := by
  rw [attentionPayload, encMask32_eq, encMask32_eq]
  rfl

/-- Settles O20: the encodings, then each payload by its lemma, and the codes and bits by evaluation. -/
theorem readPayloadLayouts : Obligations.ReadPayloadLayouts := by
  refine ⟨fun s p => ⟨pointPayload_of_vacant, pointPayload_of_enrolled⟩,
    fun n i b v => ⟨rfl, rfl, rfl, rfl, rfl, rfl, encBool_eq b, rfl, encSigned_of_in_range, encSigned_of_high,
      encSigned_of_low⟩,
    fun s b => ⟨bodyPayload_of_empty, fun x => bodyPayload_of_defined⟩,
    fun s c => ⟨fun h => ?emptyConstraint, fun x => constraintPayload_of_some⟩, fun s => ?plan,
    fun s g => ⟨groupPayload_of_free, groupPayload_of_not_free⟩, fun s => ⟨fun h => ?idle, fun j => jogPayload_of_active⟩,
    fun s => ?lines, fun s l => linkPayload_eq l, attentionPayload_eq, ?codes, ?bits⟩
  case emptyConstraint => rw [constraintPayload, h]
  case plan =>
    rw [planPayload, encOffending_eq]
    simp only [State.countConstraints, List.countP_eq_length_filter] <;> rfl
  case idle =>
    rw [jogPayload, h]
    rfl
  case lines =>
    exact congrArg (fun f => (ids 12).flatMap f
        ++ [encBool (s.assertedLine .shedStop).isSome, encBool (s.assertedLine .pitGate).isSome]
        ++ (ids 4).map fun g => encBool (s.holdButtonAsserted g)) (funext linesPayload_line)
  case codes => decide
  case bits => exact ⟨rfl, rfl, rfl, rfl, fun _ => ⟨rfl, rfl, rfl, rfl⟩⟩

end Sys2Proof.Machine
end

section

/-! The requests on points: ENROL-POINT, BIND, RETIRE-POINT, RECAPTURE-REST (R25, R28, R35, R39, R42). -/
namespace Sys2Proof.Machine

variable {s : State}

/-! ### ENROL-POINT and BIND -/

theorem Engine.queueProbe_eq (e : Engine) (p : PointId) :
    e.queueProbe p = if e.link = .running then { e with queue := e.queue ++ [p] } else e := by
  unfold Engine.queueProbe
  cases e.link <;> rfl

theorem Engine.join_eq (e : Engine) (p : PointId) : e.join p = match e.link with
    | .idle => { e with link := .running, queue := e.queue ++ [p] }
    | .running => { e with queue := e.queue ++ [p] }
    | .resetting => e := by
  unfold Engine.join
  rw [queueProbe_eq]
  cases link : e.link <;> rfl

theorem address?_out {o : AddressOp} (h : ¬(o.link < 4 ∧ 1 ≤ o.node ∧ o.node ≤ 15)) : address? o = none :=
  address?_eq_none fun h' => h ⟨by omega, h'.2⟩

/-- ENROL-POINT's checks, and what it does (R25, R39). -/
theorem enrolPoint_eq {a : Address} (p : PointId) (node : 1 ≤ a.node.val) :
    enrolPoint ⟨p.val, ⟨a.link.val, a.node.val⟩⟩ s = checked s
      [refusesIf ((s.point p).life ≠ .vacant) .refusedState [0x01, byte p.val],
       refusesFor (lowest fun q => (s.point q).life != .vacant && (s.point q).address == some a) .conflict 0x01]
      (done (s.enrol p a).settle) := by
  rw [enrolPoint, fin?_val, address?_val a node]
  dsimp only
  split
  next enrolled => exact (checked_if_pos enrolled).symm
  next vacant =>
    rw [checked_if_neg vacant]
    split
    next q held => exact (checked_for_some held).symm
    next free => exact (checked_for_none (rest := []) free).symm

theorem enrolPoint_out {o : EnrolOps}
    (h : ¬(o.point < 48 ∧ o.address.link < 4 ∧ 1 ≤ o.address.node ∧ o.address.node ≤ 15)) :
    enrolPoint o s = refuse s .refusedRange := by
  unfold enrolPoint
  by_cases point : o.point < 48
  · rw [address?_out fun inside => h ⟨point, inside⟩]
    cases fin? 48 o.point <;> rfl
  · rw [fin?_of_not_lt point]

/-- BIND's checks, and what it does (R28, R39). -/
theorem bindPoint_eq (p : PointId) :
    bindPoint p.val s = checked s
      [refusesIf ((s.point p).bindOutcome = .pending) .busy [0x01, byte p.val],
       refusesIf ((s.point p).life ≠ .draft) .refusedState [0x01, byte p.val]]
      (match (s.point p).address with
        | some a => accepted (s.rebind p a).settle
        | none => refuseFor s .refusedState (.point p)) := by
  rw [bindPoint, fin?_val]
  dsimp only
  split
  next pending => exact (checked_if_pos pending).symm
  next idle =>
    rw [checked_if_neg idle]
    split
    next other => exact (checked_if_pos other).symm
    next draft =>
      rw [checked_if_neg draft]
      rfl

theorem bindPoint_out {n : Nat} (h : 48 ≤ n) : bindPoint n s = refuse s .refusedRange := by
  rw [bindPoint, fin?_of_not_lt (Nat.not_lt.2 h)]

/-- Settles O21: both requests by their checks, with the queueing of a probe as an engine. -/
theorem enrolAndBind : Obligations.EnrolAndBind := by
  refine ⟨fun s p a hw node vacant free => ?enrol, fun s o hw out => exec_of_act hw rfl (enrolPoint_out out),
    fun s p a hw node => refusesInOrder_of_checked hw rfl (enrolPoint_eq p node),
    fun s p a hw draft idle at_ => ?bind, fun s n hw out => exec_of_act hw rfl (bindPoint_out out),
    fun s p hw => refusesInOrder_of_checked hw rfl (bindPoint_eq p)⟩
  case enrol =>
    refine (exec_of_checked hw rfl (enrolPoint_eq p node)
      (passed_if.2 ⟨not_not.2 vacant, passed_for.2 ⟨holderOf_eq_none free, passed_nil⟩⟩)).trans ?_
    simp only [State.enrol, Engine.join_eq] <;> rfl
  case bind =>
    refine (exec_of_checked hw rfl (bindPoint_eq p) (passed_if.2 ⟨idle, passed_if.2 ⟨not_not.2 draft, passed_nil⟩⟩)).trans ?_
    simp only [at_, State.rebind, Engine.queueProbe_eq] <;> rfl

/-! ### RETIRE-POINT -/

/-- A point's departure, with the rest that may follow said at once (R31, R42, R83; log 30). -/
theorem Engine.without_eq (e : Engine) (p : PointId) :
    let x : Engine :=
      { e with
        roster := e.roster.filter fun r => r.point != p
        queue := e.queue.filter fun q => q != p
        attempts := if e.queue.head? = some p then 0 else e.attempts
        exchange := e.exchange.map (Exchange.discardFor p) }
    e.without p =
      if (e.exchange = none ∨ e.exchange = some .allStop) ∧ x.roster = [] ∧ x.queue = [] then { x with cycle := none }
      else x := by
  dsimp only
  unfold Engine.without Engine.rested
  cases exchange : e.exchange with
  | none => simp
  | some x => cases x <;> simp [Exchange.discardFor]

theorem linkHasPoint_eq_true_iff (t : State) (l : LinkId) :
    t.linkHasPoint l = true ↔ ¬∀ q, (t.point q).onLink l = false := by
  simp [State.linkHasPoint, Point.onLink]

theorem idleIfEmpty_eq_ite (t : State) (l : LinkId) : t.idleIfEmpty l =
    if (t.engine l).link = .running ∧ ∀ q, (t.point q).onLink l = false then
      t.setEngine l { t.engine l with
        link := .idle, roster := [], queue := [], cycle := none
        exchange := (t.engine l).exchange.map Exchange.discard }
    else t := by
  have empty : t.linkHasPoint l = false ↔ ∀ q, (t.point q).onLink l = false := by
    rw [← Bool.not_eq_true, linkHasPoint_eq_true_iff, not_not]
  unfold State.idleIfEmpty
  simp only [Bool.and_eq_true, decide_eq_true_eq, Bool.not_eq_true', empty]
  rfl

/-- RETIRE-POINT's checks, and what it does (R42). -/
theorem retirePoint_eq (p : PointId) :
    retirePoint p.val s = checked s
      [refusesIf ((s.point p).life = .vacant) .refusedState [0x01, byte p.val],
       refusesFor ((s.point p).seat.map (·.body)) .refusedState 0x02,
       refusesFor (lowest fun c => (s.constraint c).any fun x => x.kind == .custom && x.terms.points.contains p)
         .refusedState 0x03]
      (done (s.retire p).settle) := by
  rw [retirePoint, fin?_val]
  dsimp only
  split
  next vacant => exact (checked_if_pos vacant).symm
  next enrolled =>
    rw [checked_if_neg enrolled]
    split
    next w seated => exact (checked_for_some (by rw [seated]; rfl)).symm
    next unseated =>
      rw [checked_for_none (by rw [unseated]; rfl)]
      split
      next c custom => exact (checked_for_some custom).symm
      next none => exact (checked_for_none (rest := []) none).symm

theorem retirePoint_out {n : Nat} (h : 48 ≤ n) : retirePoint n s = refuse s .refusedRange := by
  rw [retirePoint, fin?_of_not_lt (Nat.not_lt.2 h)]

theorem retire_of_address {p : PointId} {a : Address} (at_ : (s.point p).address = some a) :
    s.retire p = State.idleIfEmpty ((s.setPoint p Point.vacant).setEngine a.link ((s.engine a.link).without p)) a.link := by
  rw [State.retire, at_]
  rfl

/-- Settles O22: the request by its checks, and the departure from the link by `without_eq` and `idleIfEmpty_eq_ite`. -/
theorem retirePointResult : Obligations.RetirePointResult := by
  refine ⟨fun s p a hw enrolled unseated uncustom at_ => ?retire, Engine.without_eq, fun _ _ _ _ _ _ _ => ⟨rfl, rfl, rfl⟩,
    idleIfEmpty_eq_ite, fun s n hw out => exec_of_act hw rfl (retirePoint_out out),
    fun s p hw => refusesInOrder_of_checked hw rfl (retirePoint_eq p)⟩
  case retire =>
    have none : (lowest fun c => (s.constraint c).any fun x => x.kind == .custom && x.terms.points.contains p) = none :=
      find?_ids_eq_none_iff.2 fun c => by
        cases held : s.constraint c with
        | none => rfl
        | some x => simpa using uncustom c x held
    rw [← retire_of_address at_]
    exact exec_of_checked hw rfl (retirePoint_eq p)
      (passed_if.2 ⟨enrolled, passed_for.2 ⟨by rw [unseated]; rfl, passed_for.2 ⟨none, passed_nil⟩⟩⟩)

/-! ### RECAPTURE-REST -/

/-- RECAPTURE-REST's checks, and what it does (R35, R39). -/
theorem recaptureRest_eq (p : PointId) :
    recaptureRest p.val s = checked s
      [refusesIf (s.plan.state = .inService) .refusedLocked,
       refusesIf (¬(((s.point p).life = .bound ∨ (s.point p).life = .planned) ∧ (s.point p).health = .live))
         .refusedState [0x01, byte p.val]]
      (done (s.recapture p).settle) := by
  rw [recaptureRest, fin?_val]
  dsimp only
  split
  next locked => exact (checked_if_pos locked).symm
  next unlocked =>
    rw [checked_if_neg unlocked]
    split
    next live => exact (checked_if_neg (rest := []) (not_not.2 live)).symm
    next other => exact (checked_if_pos other).symm

theorem recaptureRest_out {n : Nat} (h : 48 ≤ n) : recaptureRest n s = refuse s .refusedRange := by
  rw [recaptureRest, fin?_of_not_lt (Nat.not_lt.2 h)]

theorem Point.lift_of_rest {x : Point} {h : Nat} {r : Option Nat} (height : x.height = some h) (rest : r = some h) :
    ({ x with rest := r } : Point).lift = some 0 := by
  subst rest
  show (match x.height, some h with | some h, some r => some ((h : Int) - (r : Int)) | _, _ => none) = some 0
  rw [height]
  exact congrArg some (sub_self _)

/-- Settles O23: the request by its checks; a rest height at the reported height leaves a lift of 0 (R6). -/
theorem recaptureRestResult : Obligations.RecaptureRestResult := by
  refine ⟨fun s p hw notInService bound live => ⟨?recapture, fun h height => ?lift⟩,
    fun s n hw out => exec_of_act hw rfl (recaptureRest_out out),
    fun s p hw => refusesInOrder_of_checked hw rfl (recaptureRest_eq p)⟩
  case recapture =>
    exact exec_of_checked hw rfl (recaptureRest_eq p)
      (passed_if.2 ⟨notInService, passed_if.2 ⟨not_not.2 ⟨bound, live⟩, passed_nil⟩⟩)
  case lift => exact Point.lift_of_rest height height

end Sys2Proof.Machine
end

section

/-! AMEND-POINT (R40, R41, R179): its two forms, the scope set, and the move of a point to another column address. -/
namespace Sys2Proof.Machine

variable {s : State}

/-! ### Ranges -/

theorem AddressOp.ok_iff {a : AddressOp} : a.ok = true ↔ a.link < 4 ∧ 1 ≤ a.node ∧ a.node ≤ 15 := by
  simp [AddressOp.ok, within]

theorem AmendPointOps.ok_iff {o : AmendPointOps} : o.ok = true ↔
    (o.address.isSome ∨ o.derated.isSome ∨ o.inhibit.isSome) ∧ ¬(o.address.isSome ∧ o.derated.isSome)
      ∧ (∀ a, o.address = some a → a.link < 4 ∧ 1 ≤ a.node ∧ a.node ≤ 15)
      ∧ ∀ d, o.derated = some d → 1 ≤ d ∧ d ≤ 6000 := by
  have addresses : o.address.all AddressOp.ok = true ↔ ∀ a, o.address = some a → a.link < 4 ∧ 1 ≤ a.node ∧ a.node ≤ 15 := by
    cases o.address <;> simp [AddressOp.ok_iff]
  have deratings : o.derated.all (within 1 Config.maxLoad) = true ↔ ∀ d, o.derated = some d → 1 ≤ d ∧ d ≤ 6000 := by
    cases o.derated <;> simp [within, Config.maxLoad]
  simp only [AmendPointOps.ok, Bool.and_eq_true, Bool.or_eq_true, Bool.not_eq_true', addresses, deratings,
    ← Bool.not_eq_true]
  tauto

/-! ### What is written on a scope set (R41) -/

theorem writeInhibit_some (s : State) (set : List PointId) (b : Bool) :
    s.writeInhibit set (some b) = s.mapPoints fun p x => if p ∈ set then { x with inhibit := b } else x := by
  simp only [State.writeInhibit, List.contains_iff_mem]

theorem writeDerating_some (s : State) (set : List PointId) (d : Nat) :
    s.writeDerating set (some d) = (set.filter fun p => (s.point p).derated != some d).foldl State.judgeOverload
      (s.mapPoints fun p x => if p ∈ set then { x with derated := some d } else x) := by
  simp only [State.writeDerating, List.contains_iff_mem]

theorem overloaded_iff (x : Point) : x.overloaded = true ↔ ∃ n d, x.load = some n ∧ x.derated = some d ∧ d < n := by
  unfold Point.overloaded
  cases x.load with
  | none => simp
  | some n => cases x.derated <;> simp

/-! ### The scope set (R179) -/

theorem ascending_filter_ids {n : Nat} (test : Fin n → Bool) : ((ids n).filter test).Pairwise (· < ·) :=
  (List.pairwise_lt_finRange n).filter _

theorem ascending_cornersOf (s : State) (bs : List BodyId) : (s.cornersOf bs).Pairwise (· < ·) :=
  ascending_filter_ids _

theorem mem_filter_ids {n : Nat} {test : Fin n → Bool} {i : Fin n} : i ∈ (ids n).filter test ↔ test i = true := by
  simp

theorem scopeSet_one (h : s.port.scope = .one) : s.scopeSet = some [s.port.focus] := by
  rw [State.scopeSet, h]

theorem scopeSet_body_of_unseated (h : s.port.scope = .body) (unseated : (s.point s.port.focus).seat = none) :
    s.scopeSet = none := by
  rw [State.scopeSet, h]
  dsimp only
  rw [unseated]

theorem scopeSet_body {w : Seat} {y : Body} (h : s.port.scope = .body) (seated : (s.point s.port.focus).seat = some w)
    (held : s.body w.body = some y) : s.scopeSet = some ((ids 48).filter fun p => y.corners.contains p) := by
  rw [State.scopeSet, h]
  dsimp only
  rw [seated]
  dsimp only
  rw [held]

theorem scopeSet_group_of_none (h : s.port.scope = .group) (none : (s.point s.port.focus).group = none) :
    s.scopeSet = .none := by
  rw [State.scopeSet, h]
  dsimp only
  rw [none]

theorem scopeSet_group {g : GroupId} (h : s.port.scope = .group) (member : (s.point s.port.focus).group = some g) :
    s.scopeSet = some (s.members g) := by
  rw [State.scopeSet, h]
  dsimp only
  rw [member]

theorem scopeSet_all (h : s.port.scope = .all) :
    s.scopeSet = some ((ids 48).filter fun p => (s.point p).life == .bound || (s.point p).life == .planned) := by
  rw [State.scopeSet, h]

/-! ### The form without an address (R41) -/

theorem amendPoint_scope {o : AmendPointOps} (ok : o.ok = true) (scope : o.address = none) :
    amendPoint o s = amendScope o s := by
  simp only [amendPoint, ok, scope, Bool.not_true, Bool.false_eq_true, if_false]

/-- Every value the request gives stands on the point already. -/
def Stands (o : AmendPointOps) (x : Point) : Bool :=
  (o.derated.isNone || o.derated == x.derated) && (o.inhibit.isNone || o.inhibit == some x.inhibit)

theorem stands_iff {o : AmendPointOps} {x : Point} : Stands o x = true ↔
    (∀ d, o.derated = some d → x.derated = some d) ∧ ∀ b, o.inhibit = some b → x.inhibit = b := by
  have derated : (o.derated.isNone || o.derated == x.derated) = true ↔ ∀ d, o.derated = some d → x.derated = some d := by
    cases o.derated with
    | none => exact ⟨fun _ => nofun, fun _ => rfl⟩
    | some d =>
      rw [Option.isNone_some, Bool.false_or, beq_iff_eq]
      refine ⟨fun eq _ hd => ?_, fun h => (h d rfl).symm⟩
      cases hd
      exact eq.symm
  have inhibit : (o.inhibit.isNone || o.inhibit == some x.inhibit) = true ↔ ∀ b, o.inhibit = some b → x.inhibit = b := by
    cases o.inhibit with
    | none => exact ⟨fun _ => nofun, fun _ => rfl⟩
    | some b =>
      rw [Option.isNone_some, Bool.false_or, beq_iff_eq, Option.some.injEq]
      refine ⟨fun eq _ hb => ?_, fun h => (h b rfl).symm⟩
      cases hb
      exact eq.symm
  rw [Stands, Bool.and_eq_true, derated, inhibit]

/-- AMEND-POINT's checks on a scope set, and what it does (R41, R179). -/
theorem amendScope_eq {o : AmendPointOps} {set : List PointId} (scope : s.scopeSet = some set) :
    amendScope o s = checked s
      [refusesFor (set.find? fun p => o.derated.any fun d => (s.point p).ratedCapacity.any (· < d)) .refusedRange 0x01,
       refusesFor (set.find? fun p =>
           (o.derated.isSome && (s.point p).life != .bound && (s.point p).life != .planned)
             || (o.inhibit.isSome && (s.point p).life == .vacant)) .refusedState 0x01]
      (if set.all fun p => Stands o (s.point p) then done s
       else done ((s.writeDerating set o.derated).writeInhibit set o.inhibit).settle) := by
  have rated : (o.derated.bind fun v => set.find? fun p => (s.point p).refusesDerating v) =
      set.find? fun p => o.derated.any fun d => (s.point p).ratedCapacity.any (· < d) := by
    cases o.derated with
    | none => exact (List.find?_eq_none.2 fun _ _ => Bool.false_ne_true).symm
    | some d => rfl
  have unbound (p : PointId) : (o.derated.isSome && !(s.point p).isBound) =
      (o.derated.isSome && (s.point p).life != .bound && (s.point p).life != .planned) := by
    rw [Bool.and_assoc, Point.isBound, Bool.not_or]
    rfl
  rw [amendScope, scope]
  dsimp only
  rw [rated]
  split
  next p found => exact (checked_for_some found).symm
  next fits =>
    rw [checked_for_none fits]
    simp only [unbound]
    split
    next p found => exact (checked_for_some found).symm
    next fit => exact (checked_for_none (rest := []) fit).symm

/-- A request whose values every point of the scope set takes is done (R41). -/
theorem amendPoint_fits {o : AmendPointOps} {set : List PointId} (scope : o.address = none)
    (given : o.derated.isSome ∨ o.inhibit.isSome) (derating : ∀ d, o.derated = some d → 1 ≤ d ∧ d ≤ 6000)
    (named : s.scopeSet = some set)
    (fits : ∀ p ∈ set, ∀ d, o.derated = some d → ((s.point p).life = .bound ∨ (s.point p).life = .planned)
      ∧ ∀ k, (s.point p).ratedCapacity = some k → d ≤ k)
    (enrolled : ∀ p ∈ set, o.inhibit.isSome → (s.point p).life ≠ .vacant) :
    amendPoint o s = if set.all fun p => Stands o (s.point p) then done s
      else done ((s.writeDerating set o.derated).writeInhibit set o.inhibit).settle := by
  have ok : o.ok = true := AmendPointOps.ok_iff.2 ⟨.inr given, by simp [scope], by simp [scope], derating⟩
  refine (amendPoint_scope ok scope).trans ((amendScope_eq named).trans (checked_of_passed
    (passed_for.2 ⟨?rated, passed_for.2 ⟨?bound, passed_nil⟩⟩)))
  case rated =>
    refine List.find?_eq_none.2 fun p hp refuses => ?_
    simp only [Option.any_eq_true, decide_eq_true_eq] at refuses
    obtain ⟨d, hd, k, hk, below⟩ := refuses
    exact absurd ((fits p hp d hd).2 k hk) (Nat.not_le.2 below)
  case bound =>
    refine List.find?_eq_none.2 fun p hp refuses => ?_
    simp only [Bool.or_eq_true, Bool.and_eq_true, bne_iff_ne, beq_iff_eq] at refuses
    rcases refuses with ⟨⟨isSome, unbound⟩, unplanned⟩ | ⟨isSome, vacant⟩
    · obtain ⟨d, hd⟩ := Option.isSome_iff_exists.1 isSome
      exact (fits p hp d hd).1.elim unbound unplanned
    · exact enrolled p hp isSome vacant

theorem amendScope_of_none {o : AmendPointOps} (h : s.scopeSet = none) :
    amendScope o s = refuseFor s .refusedState (.point s.port.focus) := by
  rw [amendScope, h]

/-! ### The form with an address (R40) -/

theorem amendPoint_address {o : AmendPointOps} {a : Address} (node : 1 ≤ a.node.val)
    (given : o.address = some ⟨a.link.val, a.node.val⟩) (alone : o.derated = none) :
    amendPoint o s = amendAddress o a s := by
  have ok : o.ok = true := by
    refine AmendPointOps.ok_iff.2 ⟨.inl (by rw [given]; rfl), by simp [alone], fun b hb => ?_, by simp [alone]⟩
    cases given.symm.trans hb
    exact ⟨a.link.isLt, node, Nat.le_of_lt_succ a.node.isLt⟩
  simp only [amendPoint, ok, given, Bool.not_true, Bool.false_eq_true, if_false, address?_val a node]

/-- The checks of an address amendment, and what it does (R40). -/
theorem amendAddress_eq (o : AmendPointOps) (a : Address) :
    let p := s.port.focus
    amendAddress o a s = checked s
      [refusesIf (s.port.scope ≠ .one) .refusedRange, refusesIf (s.plan.state = .inService) .refusedLocked,
       refusesIf ((s.point p).life = .planned) .refusedLocked [0x01, byte p.val],
       refusesIf (s.plan.state = .compiling) .busy,
       refusesIf ((s.point p).life = .vacant) .refusedState [0x01, byte p.val],
       refusesFor (lowest fun q => q != p && (s.point q).life != .vacant && (s.point q).address == some a)
         .conflict 0x01]
      (if (s.point p).address = some a ∧ (o.inhibit = none ∨ o.inhibit = some (s.point p).inhibit) then done s
       else done (State.writeInhibit (if (s.point p).address = some a then s else s.readdress p a) [p] o.inhibit).settle) := by
  dsimp only
  unfold amendAddress
  dsimp only
  split
  next wide => exact (checked_if_pos wide).symm
  next one =>
    rw [checked_if_neg one]
    split
    next locked => exact (checked_if_pos locked).symm
    next unlocked =>
      rw [checked_if_neg unlocked]
      split
      next planned => exact (checked_if_pos planned).symm
      next unplanned =>
        rw [checked_if_neg unplanned]
        split
        next compiling => exact (checked_if_pos compiling).symm
        next settled =>
          rw [checked_if_neg settled]
          split
          next vacant => exact (checked_if_pos vacant).symm
          next enrolled =>
            rw [checked_if_neg enrolled]
            split
            next q held => exact (checked_for_some held).symm
            next free => exact (checked_for_none (rest := []) free).symm

/-- The checks of an address amendment that a DRAFT or BOUND focus point passes (R40). -/
theorem addressed (s : State) (a : Address) (one : s.port.scope = .one) (open_ : s.PlanOpen)
    (enrolled : (s.point s.port.focus).life = .draft ∨ (s.point s.port.focus).life = .bound)
    (free : ∀ q, q ≠ s.port.focus → (s.point q).life ≠ .vacant → (s.point q).address ≠ some a) :
    let p := s.port.focus
    ∀ f ∈ [refusesIf (s.port.scope ≠ .one) .refusedRange, refusesIf (s.plan.state = .inService) .refusedLocked,
       refusesIf ((s.point p).life = .planned) .refusedLocked [0x01, byte p.val],
       refusesIf (s.plan.state = .compiling) .busy,
       refusesIf ((s.point p).life = .vacant) .refusedState [0x01, byte p.val],
       refusesFor (lowest fun q => q != p && (s.point q).life != .vacant && (s.point q).address == some a)
         .conflict 0x01], f = none := by
  have unplanned : (s.point s.port.focus).life ≠ .planned := by
    rcases enrolled with e | e <;> rw [e] <;> nofun
  have held : (s.point s.port.focus).life ≠ .vacant := by
    rcases enrolled with e | e <;> rw [e] <;> nofun
  have none : (lowest fun q => q != s.port.focus && (s.point q).life != .vacant && (s.point q).address == some a) =
      .none :=
    find?_ids_eq_none_iff.2 fun q => Bool.eq_false_iff.2 fun h => by
      simp only [Bool.and_eq_true, bne_iff_ne, beq_iff_eq] at h
      obtain ⟨⟨ne, enrolled⟩, same⟩ := h
      exact free q ne enrolled same
  exact passed_if.2 ⟨not_not.2 one, passed_if.2 ⟨open_.1, passed_if.2 ⟨unplanned, passed_if.2 ⟨open_.2,
    passed_if.2 ⟨held, passed_for.2 ⟨none, passed_nil⟩⟩⟩⟩⟩⟩

theorem amendPoint_out {o : AmendPointOps} (h : ¬o.ok = true) : amendPoint o s = refuse s .refusedRange := by
  simp [amendPoint, h]

/-! ### The move of a point (R31, R40, R75, R84, R107) -/

namespace State

/-- The state as an address amendment leaves the point and its links, before the skew entry is judged. -/
def relinked (s : State) (p : PointId) (a b : Address) : State :=
  let left := (s.setPoint p { (s.point p).unbind with address := some a }).setEngine b.link ((s.engine b.link).without p)
  let there := if b.link = a.link then left else left.idleIfEmpty b.link
  there.setEngine a.link ((there.engine a.link).join p)

theorem readdress_of_address {p : PointId} {b : Address} (a : Address) (at_ : (s.point p).address = some b) :
    s.readdress p a = (s.relinked p a b).judgeSkewOf p := by
  unfold readdress
  dsimp only
  rw [at_]
  rfl

theorem relinked_eq (s : State) (p : PointId) (a b : Address) : s.relinked p a b = { s with
    points := s.points.put p { (s.point p).unbind with address := some a }, links := (s.relinked p a b).links } := by
  unfold relinked
  dsimp only
  split
  · rfl
  · obtain ⟨e, eq⟩ := idleIfEmpty_eq ((s.setPoint p { (s.point p).unbind with address := some a }).setEngine b.link
      ((s.engine b.link).without p)) b.link
    rw [eq]
    rfl

theorem point_relinked (s : State) (p : PointId) (a b : Address) (q : PointId) :
    (s.relinked p a b).point q = (s.setPoint p { (s.point p).unbind with address := some a }).point q := by
  rw [relinked_eq]
  rfl

theorem relinked_of_same_link {p : PointId} {a b : Address} (same : a.link = b.link) :
    (s.relinked p a b).engine a.link = ((s.engine b.link).without p).join p := by
  unfold relinked
  dsimp only
  rw [if_pos same.symm, engine_setEngine_self, same, engine_setEngine_self]

theorem engine_idleIfEmpty_of_ne {t : State} {l m : LinkId} (ne : l ≠ m) : (t.idleIfEmpty l).engine m = t.engine m := by
  obtain ⟨e, eq⟩ := idleIfEmpty_eq t l
  rw [eq, engine_setEngine_of_ne t ne]

theorem relinked_of_other_link {p : PointId} {a b : Address} (other : a.link ≠ b.link) :
    (s.relinked p a b).engine a.link = (s.engine a.link).join p := by
  unfold relinked
  dsimp only
  rw [if_neg (Ne.symm other), engine_setEngine_self, engine_idleIfEmpty_of_ne (Ne.symm other),
    engine_setEngine_of_ne _ (Ne.symm other)]
  rfl

theorem relinked_elsewhere {p : PointId} {a b : Address} {l : LinkId} (na : l ≠ a.link) (nb : l ≠ b.link) :
    (s.relinked p a b).engine l = s.engine l := by
  unfold relinked
  dsimp only
  rw [engine_setEngine_of_ne _ (Ne.symm na)]
  split
  · exact engine_setEngine_of_ne _ (Ne.symm nb) _
  · rw [engine_idleIfEmpty_of_ne (Ne.symm nb)]
    exact engine_setEngine_of_ne _ (Ne.symm nb) _

/-- The old link, which goes IDLE with its last point (R75). -/
theorem relinked_left {p : PointId} {a b : Address} (other : a.link ≠ b.link) :
    let left := (s.engine b.link).without p
    (s.relinked p a b).engine b.link =
      if left.link = .running ∧ ∀ q, q ≠ p → (s.point q).onLink b.link = false then
        { left with
          link := .idle, roster := [], queue := [], cycle := none
          exchange := left.exchange.map Exchange.discard }
      else left := by
  have moved : (s.setPoint p { (s.point p).unbind with address := some a }).point p =
      { (s.point p).unbind with address := some a } := point_setPoint_self s p _
  have off : ({ (s.point p).unbind with address := some a } : Point).onLink b.link = false := by
    simp [Point.onLink, other]
  have alone : (∀ q, ((s.setPoint p { (s.point p).unbind with address := some a }).point q).onLink b.link = false) ↔
      ∀ q, q ≠ p → (s.point q).onLink b.link = false := by
    refine ⟨fun h q ne => ?_, fun h q => ?_⟩
    · rw [← point_setPoint_of_ne s (Ne.symm ne) { (s.point p).unbind with address := some a }]
      exact h q
    · by_cases eq : q = p
      · rw [eq, moved]
        exact off
      · rw [point_setPoint_of_ne s (Ne.symm eq)]
        exact h q eq
  unfold relinked
  dsimp only
  rw [if_neg (Ne.symm other), engine_setEngine_of_ne _ other, idleIfEmpty_eq_ite, engine_setEngine_self]
  by_cases empty : ((s.engine b.link).without p).link = .running ∧ ∀ q, q ≠ p → (s.point q).onLink b.link = false
  · rw [if_pos empty, if_pos ⟨empty.1, alone.2 empty.2⟩, engine_setEngine_self]
  · rw [if_neg empty, if_neg fun h => empty ⟨h.1, alone.1 h.2⟩, engine_setEngine_self]

/-- A judgement of skew writes entries, group records and flags alone. -/
theorem judgeSkewOf_eq (t : State) (p : PointId) : ∃ k g a, t.judgeSkewOf p = { t with
    skew := k, groups := g, attention := a } := by
  unfold judgeSkewOf
  split
  next w seated =>
    unfold judgeSkew
    split
    · exact ⟨_, t.groups, t.attention, rfl⟩
    next x held =>
      dsimp only
      split
      · obtain ⟨g, a, eq⟩ := (State.raiseFlag (t.setSkew w.body (t.skewed x)) .load).claimOn_eq x.group .skew
        rw [eq]
        exact ⟨_, g, a, rfl⟩
      · exact ⟨_, t.groups, t.attention, rfl⟩
  · exact ⟨t.skew, t.groups, t.attention, rfl⟩

/-- The skew entry of the body of a point that was unbound becomes absent, and nothing else is judged (R107). -/
theorem judgeSkewOf_relinked {p : PointId} {a b : Address} (seats : s.SeatsMatch) :
    ((s.point p).seat = none → (s.relinked p a b).judgeSkewOf p = s.relinked p a b)
      ∧ ∀ w, (s.point p).seat = some w →
          (s.relinked p a b).judgeSkewOf p = (s.relinked p a b).setSkew w.body false := by
  have moved : (s.relinked p a b).point p = { (s.point p).unbind with address := some a } :=
    (point_relinked s p a b p).trans (point_setPoint_self s p _)
  refine ⟨fun unseated => ?_, fun w seated => ?_⟩
  · have seat : ((s.relinked p a b).point p).seat = none := by rw [moved]; exact unseated
    rw [judgeSkewOf, seat]
  · obtain ⟨x, held, corner⟩ := seats.2.1 p w seated
    have body : (s.relinked p a b).body w.body = some x := by
      rw [relinked_eq]
      exact held
    exact judgeSkewOf_unloaded (by rw [moved]; exact seated) body corner (by rw [moved]; rfl)

end State

/-- Settles O24: the two forms by their checks, what each writes, and the scope set by the scope held. -/
theorem amendPointResult : Obligations.AmendPointResult := by
  refine ⟨fun s o set hw scope given derating named fits enrolled => ⟨fun changes => ?writes, fun stands => ?stands⟩,
    writeInhibit_some, fun s set d => ⟨writeDerating_some s set d, ?judged⟩,
    fun s p => ⟨fun heavy => ?overload, fun light => ?load⟩,
    fun s => ⟨scopeSet_one, fun body => ⟨scopeSet_body_of_unseated body, fun w y seated held => ?body⟩,
      fun group => ⟨scopeSet_group_of_none group, fun g member => ?group⟩, fun all => ?all⟩,
    fun s p a b at_ seats => ?skew,
    fun s o a hw node given alone one open_ enrolled free => ⟨fun elsewhere => ?moves, fun here => ?stays⟩,
    fun s p a b at_ => ?links, fun s o hw out => ?out, fun s o a hw node given alone => ?addressChecks,
    fun s o hw scope given derating => ⟨fun none => ?scopeless, fun set named => ?scopeChecks⟩⟩
  case writes =>
    have changed : ¬(set.all fun p => Stands o (s.point p)) = true := by
      obtain ⟨p, hp, change⟩ := changes
      intro all
      obtain ⟨derated, inhibit⟩ := stands_iff.1 (List.all_eq_true.1 all p hp)
      rcases change with ⟨d, hd, ne⟩ | ⟨b, hb, ne⟩
      · exact ne (derated d hd)
      · exact ne (inhibit b hb)
    have done := amendPoint_fits scope given derating named fits enrolled
    rw [if_neg changed] at done
    exact exec_of_act hw rfl done
  case stands =>
    have done := amendPoint_fits scope given derating named fits enrolled
    rw [if_pos (List.all_eq_true.2 fun p hp => stands_iff.2 (stands p hp))] at done
    exact exec_of_act hw rfl done
  case judged =>
    rw [writeDerating_some]
    exact State.Judged.foldl _ State.Judged.judgeOverload _ _
  case overload => rw [State.judgeOverload, (overloaded_iff _).2 heavy]
  case load => rw [State.judgeOverload, Bool.eq_false_iff.2 fun h => light ((overloaded_iff _).1 h)]
  case body =>
    refine ⟨_, scopeSet_body body seated held, ascending_filter_ids _, fun p => ?_⟩
    rw [mem_filter_ids, List.contains_iff_mem]
    rfl
  case group =>
    exact ⟨_, scopeSet_group group member, ascending_cornersOf s _, fun p => State.mem_cornersOf_iff s _ p⟩
  case all =>
    refine ⟨_, scopeSet_all all, ascending_filter_ids _, fun p => ?_⟩
    rw [mem_filter_ids, Bool.or_eq_true, beq_iff_eq, beq_iff_eq]
  case skew =>
    obtain ⟨unseated, seated⟩ := State.judgeSkewOf_relinked (a := a) (b := b) (p := p) seats
    have relinked := s.relinked_eq p a b
    dsimp only
    rw [State.readdress_of_address a at_]
    refine ⟨fun none => ?_, fun w seat => ?_, ?_⟩
    · rw [unseated none, relinked]
    · rw [seated w seat, relinked]
      rfl
    · cases seat : (s.point p).seat with
      | none => rw [unseated seat, relinked]
      | some w =>
        rw [seated w seat, relinked]
        rfl
  case moves =>
    have done := (amendPoint_address node given alone).trans ((amendAddress_eq o a).trans
      (checked_of_passed (addressed s a one open_ enrolled free)))
    rw [if_neg fun h => elsewhere h.1, if_neg elsewhere] at done
    exact exec_of_act hw rfl done
  case stays =>
    have done := (amendPoint_address node given alone).trans ((amendAddress_eq o a).trans
      (checked_of_passed (addressed s a one open_ enrolled free)))
    rw [if_pos here] at done
    by_cases stands : o.inhibit = none ∨ o.inhibit = some (s.point s.port.focus).inhibit
    · rw [if_pos ⟨here, stands⟩] at done
      rw [if_pos stands]
      exact exec_of_act hw rfl done
    · rw [if_neg fun h => stands h.2] at done
      rw [if_neg stands]
      exact exec_of_act hw rfl done
  case links =>
    obtain ⟨k, g, c, judged⟩ := State.judgeSkewOf_eq (s.relinked p a b) p
    have engines (l : LinkId) : (s.readdress p a).engine l = (s.relinked p a b).engine l := by
      rw [State.readdress_of_address a at_, judged]
      rfl
    have points (q : PointId) : (s.readdress p a).point q =
        (s.setPoint p { (s.point p).unbind with address := some a }).point q := by
      rw [State.readdress_of_address a at_, judged]
      exact State.point_relinked s p a b q
    dsimp only
    refine ⟨(points p).trans (State.point_setPoint_self s p _), fun q ne => ?_, fun same => ?_, fun other => ⟨?_, ?_⟩,
      fun l na nb => (engines l).trans (State.relinked_elsewhere na nb), s.relinked p a b, ?_, ?_⟩
    · exact (points q).trans (State.point_setPoint_of_ne s (Ne.symm ne) _)
    · exact (engines a.link).trans ((State.relinked_of_same_link same).trans (Engine.join_eq _ p))
    · exact (engines a.link).trans ((State.relinked_of_other_link other).trans (Engine.join_eq _ p))
    · exact (engines b.link).trans (State.relinked_left other)
    · rw [State.relinked_eq]
    · rw [State.readdress_of_address a at_]
      exact State.Judged.judgeSkewOf _ p
  case out => exact exec_of_act hw rfl (amendPoint_out fun ok => out (AmendPointOps.ok_iff.1 ok))
  case addressChecks =>
    exact refusesInOrder_of_checked hw rfl ((amendPoint_address node given alone).trans (amendAddress_eq o a))
  case scopeless =>
    have ok : o.ok = true := AmendPointOps.ok_iff.2 ⟨.inr given, by simp [scope], by simp [scope], derating⟩
    exact exec_of_act hw rfl ((amendPoint_scope ok scope).trans (amendScope_of_none none))
  case scopeChecks =>
    have ok : o.ok = true := AmendPointOps.ok_iff.2 ⟨.inr given, by simp [scope], by simp [scope], derating⟩
    exact refusesInOrder_of_checked hw rfl ((amendPoint_scope ok scope).trans (amendScope_eq named))

end Sys2Proof.Machine
end

section

/-! The requests on bodies (R8 to R17): the checks they share, their ranges, and what each writes. -/
namespace Sys2Proof.Machine

variable {s : State}

/-! ### The checks that body requests share (R8) -/

theorem groupInUse_eq_none (free : s.AllFree) : s.groupInUse = none := s.busyGroup_eq_none_iff.2 free

section shared

variable {b : BodyId} {want : Bool} {wrong : Prop} [Decidable wrong] {rest : List (Option (Status × List Byte))}
  {r : Answer × State}

theorem checked_body_refused {a : Answer} (life : wrong ↔ (s.body b).isSome ≠ want)
    (h : s.bodyRefusal b want = some a) : checked s (s.bodyChecks wrong ++ rest) r = (a, s) := by
  show checked s (refusesIf _ _ :: refusesIf _ _ :: refusesIf _ _ :: refusesFor _ _ _ :: rest) r = _
  unfold State.bodyRefusal at h
  split at h
  next locked =>
    cases h
    exact checked_if_pos locked
  next unlocked =>
    rw [checked_if_neg unlocked]
    split at h
    next compiling =>
      cases h
      exact checked_if_pos compiling
    next settled =>
      rw [checked_if_neg settled]
      split at h
      next other =>
        cases h
        exact checked_if_pos (life.2 other)
      next right =>
        rw [checked_if_neg fun w => right (life.1 w)]
        split at h
        next g used =>
          cases h
          exact checked_for_some used
        next => cases h

theorem checked_body_passed (life : wrong ↔ (s.body b).isSome ≠ want) (h : s.bodyRefusal b want = none) :
    checked s (s.bodyChecks wrong ++ rest) r = checked s rest r := by
  obtain ⟨open_, right, free⟩ := State.bodyRefusal_eq_none_iff.1 h
  show checked s (refusesIf _ _ :: refusesIf _ _ :: refusesIf _ _ :: refusesFor _ _ _ :: rest) r = _
  rw [checked_if_neg open_.1, checked_if_neg open_.2, checked_if_neg fun w => life.1 w right,
    checked_for_none (groupInUse_eq_none free)]

theorem passed_body (open_ : s.PlanOpen) (right : ¬wrong) (free : s.AllFree) (others : ∀ f ∈ rest, f = none) :
    ∀ f ∈ s.bodyChecks wrong ++ rest, f = none :=
  passed_if.2 ⟨open_.1, passed_if.2 ⟨open_.2, passed_if.2 ⟨right, passed_for.2 ⟨groupInUse_eq_none free, others⟩⟩⟩⟩

end shared

/-- A point that may not enter a body is VACANT or stands under one (R10, R12). -/
theorem not_enterable (x : Point) : (!x.enterable) = (x.life == .vacant || x.seat.isSome) := by
  rw [Point.enterable, Bool.not_and]
  cases x.seat <;> cases x.life <;> rfl

theorem otherAt_eq_none {b : BodyId} {pos : Position} (alone : ∀ c y, c ≠ b → s.body c = some y → y.position ≠ pos) :
    (lowest fun c => c != b && (s.body c).any fun y => y.position == pos) = none :=
  find?_ids_eq_none_iff.2 fun c => Bool.eq_false_iff.2 fun h => by
    simp only [Bool.and_eq_true, bne_iff_ne, Option.any_eq_true, beq_iff_eq] at h
    obtain ⟨ne, y, held, at_⟩ := h
    exact alone c y ne held at_

/-- A body record written leaves the plan with a body (R9). -/
theorem planAfterBodies_writeBody_some (b : BodyId) (x : Body) :
    (s.writeBody b (some x)).planAfterBodies = (s.writeBody b (some x)).planTo .drafted := by
  have any : (s.writeBody b (some x)).anyBody = true :=
    List.any_eq_true.2 ⟨b, mem_ids b, by rw [State.body_writeBody, if_pos rfl]; rfl⟩
  rw [State.planAfterBodies, any]
  rfl

/-! ### DEFINE-BODY (R10, R11) -/

theorem within_iff {lo hi n : Nat} : within lo hi n = true ↔ lo ≤ n ∧ n ≤ hi := by
  simp [within]

/-- Limits in range, given one by one or together. -/
theorem limits_iff (a b c : OrDefault) :
    (bodyLimitOk a = true ∧ bodyLimitOk b = true ∧ bodyLimitOk c = true) ↔
      ∀ n, a = .value n ∨ b = .value n ∨ c = .value n → 1 ≤ n ∧ n ≤ 2000 := by
  simp only [bodyLimitOk_eq_true_iff]
  exact ⟨fun ⟨ha, hb, hc⟩ n h => h.elim (ha n) fun h => h.elim (hb n) (hc n),
    fun h => ⟨fun n e => h n (.inl e), fun n e => h n (.inr (.inl e)), fun n e => h n (.inr (.inr e))⟩⟩

theorem DefineBodyOps.ok_iff {o : DefineBodyOps} : o.ok = true ↔
    o.body < 12 ∧ o.position < 12 ∧ (∀ n ∈ [o.ll, o.lr, o.tl, o.tr], n < 48) ∧ [o.ll, o.lr, o.tl, o.tr].Nodup
      ∧ (o.position = 0 → o.joint = .none)
      ∧ ∀ n, o.side = .value n ∨ o.end_ = .value n ∨ o.twist = .value n → 1 ≤ n ∧ n ≤ 2000 := by
  rw [← limits_iff, ← distinct_eq_true_iff]
  simp only [DefineBodyOps.ok, Bool.and_eq_true, decide_eq_true_eq, List.all_eq_true, Bool.or_eq_true, bne_iff_ne,
    beq_iff_eq, and_assoc, ne_eq, imp_iff_not_or]

theorem defineBody_out {o : DefineBodyOps} (h : ¬o.ok = true) : defineBody o s = refuse s .refusedRange := by
  have none : DefineBodyOps.record? o = none := if_neg h
  rw [defineBody, none]

/-- DEFINE-BODY's checks on a record, and what it does (R8, R10). -/
theorem defineBody_eq {o : DefineBodyOps} {b : BodyId} {x : Body} (record : DefineBodyOps.record? o = some (b, x)) :
    defineBody o s = checked s
      (s.bodyChecks ((s.body b).isSome)
        ++ [refusesFor (x.corners.find? fun p => (s.point p).life == .vacant || (s.point p).seat.isSome)
              .refusedState 0x01,
            refusesFor (lowest fun c => c != b && (s.body c).any fun y => y.position == x.position) .conflict 0x02])
      (done (s.define b x).settle) := by
  have life : (s.body b).isSome = true ↔ (s.body b).isSome ≠ false := by rw [ne_eq, Bool.not_eq_false]
  rw [defineBody, record]
  dsimp only
  split
  next a refused => exact (checked_body_refused life refused).symm
  next passed =>
    rw [checked_body_passed life passed]
    simp only [not_enterable]
    split
    next p found => exact (checked_for_some found).symm
    next enterable =>
      rw [checked_for_none enterable]
      split
      next c found => exact (checked_for_some found).symm
      next alone => exact (checked_for_none (rest := []) alone).symm

/-- A body's own corners name it (R3). -/
theorem seat_writeBody_corner (b : BodyId) {x : Body} (nodup : x.corners.Nodup) (c : Corner) :
    ((s.writeBody b (some x)).point (x.corner c)).seat = some ⟨b, c⟩ := by
  rw [State.point_writeBody_corner s b x nodup c]

theorem point_writeBody_other (s : State) (b : BodyId) (x : Option Body) (p : PointId)
    (h : ∀ r, x = some r → p ∉ r.corners) :
    (s.writeBody b x).point p =
      if ∃ w ∈ (s.point p).seat, w.body = b then { s.point p with seat := none } else s.point p := by
  have named : (s.point p).seat.any (·.body == b) = true ↔ ∃ w ∈ (s.point p).seat, w.body = b := by
    simp [Option.any_eq_true]
  rw [State.point_writeBody_of_not_corner s b x p h]
  simp only [named]

/-- Settles O25: the request by its checks on the record it describes, and what writing a body record writes. -/
theorem defineBodyResult : Obligations.DefineBodyResult := by
  refine ⟨fun s b pos ll lr tl tr j side end_ twist hw nodup joint limits => ?record,
    fun s o hw out => exec_of_act hw rfl (defineBody_out fun ok => out (DefineBodyOps.ok_iff.1 ok)),
    fun s b x => ⟨fun r c eq nodup => ?corner, point_writeBody_other s b x, rfl⟩⟩
  case record =>
    have record : DefineBodyOps.record?
        ⟨b.val, pos.val, ll.val, lr.val, tl.val, tr.val, j, side, end_, twist⟩ =
        some (b, ⟨pos, ll, lr, tl, tr, j, side.get 100, end_.get 300, twist.get 60, none⟩) := by
      have ok : DefineBodyOps.ok ⟨b.val, pos.val, ll.val, lr.val, tl.val, tr.val, j, side, end_, twist⟩ = true := by
        refine DefineBodyOps.ok_iff.2 ⟨b.isLt, pos.isLt, ?_, ?_, fun zero => joint (Fin.ext zero), limits⟩
        · simp
        · exact nodup.map Fin.val_injective
      rw [DefineBodyOps.record?, if_pos ok]
      dsimp only
      simp only [fin?_val]
      rfl
    refine ⟨fun open_ free empty enter alone => ?define, ?body, seat_writeBody_corner b nodup,
      refusesInOrder_of_checked hw rfl (defineBody_eq record)⟩
    case define =>
      rw [← planAfterBodies_writeBody_some]
      refine exec_of_checked hw rfl (defineBody_eq record) (passed_body open_ (by rw [empty]; nofun) free
        (passed_for.2 ⟨?enterable, passed_for.2 ⟨otherAt_eq_none fun c y _ => alone c y, passed_nil⟩⟩))
      refine List.find?_eq_none.2 fun p hp refused => ?_
      obtain ⟨enrolled, unseated⟩ := enter p hp
      simp [enrolled, unseated] at refused
    case body => rw [State.body_writeBody, if_pos rfl]
  case corner =>
    subst eq
    exact State.point_writeBody_corner s b r nodup c

/-! ### AMEND-BODY (R12 to R15) -/

theorem givenId_val {n : Nat} {o : Option Nat} (held : Fin n) (lt : ∀ k, o = some k → k < n) :
    (givenId o held).val = o.getD held.val := by
  cases o with
  | none => rfl
  | some k => simp [givenId, fin?_of_lt (lt k rfl)]

theorem givenLimit_eq (o : Option OrDefault) (d held : Nat) : givenLimit o d held = match o with
    | none => held
    | some (.value n) => n
    | some .default_ => d := by
  rcases o with _ | _ | _ <;> rfl

theorem all_lt_iff {o : Option Nat} {k : Nat} : o.all (· < k) = true ↔ ∀ n, o = some n → n < k := by
  cases o <;> simp

theorem all_bodyLimitOk_iff {o : Option OrDefault} :
    o.all bodyLimitOk = true ↔ ∀ n, o = some (.value n) → 1 ≤ n ∧ n ≤ 2000 := by
  cases o <;> simp [bodyLimitOk_eq_true_iff]

theorem all_limits_iff (a b c : Option OrDefault) :
    (a.all bodyLimitOk = true ∧ b.all bodyLimitOk = true ∧ c.all bodyLimitOk = true) ↔
      ∀ n, a = some (.value n) ∨ b = some (.value n) ∨ c = some (.value n) → 1 ≤ n ∧ n ≤ 2000 := by
  simp only [all_bodyLimitOk_iff]
  exact ⟨fun ⟨ha, hb, hc⟩ n h => h.elim (ha n) fun h => h.elim (hb n) (hc n),
    fun h => ⟨fun n e => h n (.inl e), fun n e => h n (.inr (.inl e)), fun n e => h n (.inr (.inr e))⟩⟩

theorem AmendBodyOps.ok_iff {o : AmendBodyOps} : o.ok = true ↔
    o.body < 12
      ∧ (o.position.isSome ∨ o.joint.isSome ∨ o.ll.isSome ∨ o.lr.isSome ∨ o.tl.isSome ∨ o.tr.isSome ∨ o.side.isSome
        ∨ o.end_.isSome ∨ o.twist.isSome)
      ∧ (∀ n, o.position = some n → n < 12)
      ∧ (∀ n, o.ll = some n ∨ o.lr = some n ∨ o.tl = some n ∨ o.tr = some n → n < 48)
      ∧ ∀ n, o.side = some (.value n) ∨ o.end_ = some (.value n) ∨ o.twist = some (.value n) → 1 ≤ n ∧ n ≤ 2000 := by
  rw [← all_limits_iff]
  simp only [AmendBodyOps.ok, AmendBodyOps.given, Bool.and_eq_true, Bool.or_eq_true, decide_eq_true_eq, all_lt_iff,
    or_imp, forall_and, and_assoc, or_assoc]

/-- The values of a resulting record (R12, R15). -/
theorem amend_values (x : Body) {o : AmendBodyOps} (ok : o.ok = true) :
    (x.amend o).position.val = o.position.getD x.position.val
      ∧ (x.amend o).ll.val = o.ll.getD x.ll.val ∧ (x.amend o).lr.val = o.lr.getD x.lr.val
      ∧ (x.amend o).tl.val = o.tl.getD x.tl.val ∧ (x.amend o).tr.val = o.tr.getD x.tr.val := by
  obtain ⟨_, _, position, corners, _⟩ := AmendBodyOps.ok_iff.1 ok
  exact ⟨givenId_val _ position, givenId_val _ fun n h => corners n (.inl h),
    givenId_val _ fun n h => corners n (.inr (.inl h)), givenId_val _ fun n h => corners n (.inr (.inr (.inl h))),
    givenId_val _ fun n h => corners n (.inr (.inr (.inr h)))⟩

theorem resulting_some (given : Option Nat) (held : Nat) : resulting given (some held) = some (given.getD held) := by
  cases given <;> rfl

theorem resulting_none (given : Option Nat) : resulting given none = given := by
  cases given <;> rfl

theorem cornersOk_some_iff (x : Body) {o : AmendBodyOps} (ok : o.ok = true) :
    AmendBodyOps.cornersOk o (some x) = true ↔ (x.amend o).corners.Nodup := by
  obtain ⟨_, ll, lr, tl, tr⟩ := amend_values x ok
  have vals : (x.amend o).corners.map Fin.val =
      [o.ll.getD x.ll.val, o.lr.getD x.lr.val, o.tl.getD x.tl.val, o.tr.getD x.tr.val] := by
    rw [← ll, ← lr, ← tl, ← tr]
    rfl
  rw [← List.nodup_map_iff Fin.val_injective, vals, ← distinct_eq_true_iff]
  simp only [AmendBodyOps.cornersOk, Option.map_some, resulting_some]
  rfl

theorem jointOk_some_iff (x : Body) {o : AmendBodyOps} (ok : o.ok = true) :
    AmendBodyOps.jointOk o (some x) = true ↔ ((x.amend o).position = 0 → (x.amend o).joint = .none) := by
  obtain ⟨position, _⟩ := amend_values x ok
  have joint : (o.joint.orElse fun _ => some x.joint) = some (x.amend o).joint := by
    unfold Body.amend
    cases o.joint <;> rfl
  have zero : (x.amend o).position = 0 ↔ (x.amend o).position.val = 0 := Fin.ext_iff
  rw [zero, position]
  simp only [AmendBodyOps.jointOk, Option.map_some, resulting_some, joint]
  simp [imp_iff_not_or]

theorem cornersOk_none_iff {o : AmendBodyOps} :
    AmendBodyOps.cornersOk o none = true ↔ [o.ll, o.lr, o.tl, o.tr].reduceOption.Nodup := by
  simp only [AmendBodyOps.cornersOk, Option.map_none, resulting_none, distinct_eq_true_iff]
  rfl

theorem jointOk_none_iff {o : AmendBodyOps} :
    AmendBodyOps.jointOk o none = true ↔ ¬(o.position = some 0 ∧ o.joint ≠ none ∧ o.joint ≠ some .none) := by
  simp only [AmendBodyOps.jointOk, Option.map_none, resulting_none]
  cases o.position with
  | none => simp
  | some n =>
    cases o.joint with
    | none => simp
    | some j => simp [imp_iff_not_or]

theorem amendBody_out {o : AmendBodyOps}
    (h : ∀ b, fin? 12 o.body = some b →
      ¬(o.ok && AmendBodyOps.cornersOk o (s.body b) && AmendBodyOps.jointOk o (s.body b)) = true) :
    amendBody o s = refuse s .refusedRange := by
  unfold amendBody
  split
  · rfl
  next b named =>
    exact if_pos (Bool.not_eq_true' _ ▸ Bool.eq_false_iff.2 (h b named))

theorem amendBody_at {o : AmendBodyOps} {b : BodyId} (at_ : o.body = b.val) {c : BodyId}
    (named : fin? 12 o.body = some c) : c = b :=
  Fin.ext ((fin?_eq_some named).trans at_)

/-- AMEND-BODY's checks on a DEFINED body, and what it does (R8, R12). -/
theorem amendBody_eq {b : BodyId} {x : Body} {o : AmendBodyOps} (held : s.body b = some x) (at_ : o.body = b.val)
    (ok : o.ok = true) (nodup : (x.amend o).corners.Nodup)
    (joint : (x.amend o).position = 0 → (x.amend o).joint = .none) :
    amendBody o s = checked s
      (s.bodyChecks False
        ++ [refusesFor ((x.amend o).corners.find? fun p =>
              !x.corners.contains p && ((s.point p).life == .vacant || (s.point p).seat.isSome)) .refusedState 0x01,
            refusesFor (lowest fun c => c != b && (s.body c).any fun y => y.position == (x.amend o).position)
              .conflict 0x02])
      (done (s.amendRecord b x (x.amend o))) := by
  have life : False ↔ (s.body b).isSome ≠ true := by simp [held]
  have fits : (!(o.ok && AmendBodyOps.cornersOk o (s.body b) && AmendBodyOps.jointOk o (s.body b))) = false := by
    rw [held, ok, (cornersOk_some_iff x ok).2 nodup, (jointOk_some_iff x ok).2 joint]
    rfl
  rw [amendBody, at_, fin?_val]
  dsimp only
  rw [if_neg (Bool.eq_false_iff.1 fits)]
  split
  next a refused => exact (checked_body_refused life refused).symm
  next passed =>
    rw [checked_body_passed life passed, held]
    simp only [not_enterable]
    split
    next p found => exact (checked_for_some found).symm
    next enterable =>
      rw [checked_for_none enterable]
      split
      next c found => exact (checked_for_some found).symm
      next alone => exact (checked_for_none (rest := []) alone).symm

/-- AMEND-BODY's checks on an EMPTY body (R8, R12). -/
theorem amendBody_empty {b : BodyId} {o : AmendBodyOps} (empty : s.body b = none) (at_ : o.body = b.val)
    (ok : o.ok = true) (nodup : [o.ll, o.lr, o.tl, o.tr].reduceOption.Nodup)
    (joint : ¬(o.position = some 0 ∧ o.joint ≠ none ∧ o.joint ≠ some .none)) :
    amendBody o s = checked s (s.bodyChecks True) (refuse s .refusedState) := by
  have life : True ↔ (s.body b).isSome ≠ true := by simp [empty]
  have fits : (!(o.ok && AmendBodyOps.cornersOk o (s.body b) && AmendBodyOps.jointOk o (s.body b))) = false := by
    rw [empty, ok, cornersOk_none_iff.2 nodup, jointOk_none_iff.2 joint]
    rfl
  rw [amendBody, at_, fin?_val]
  dsimp only
  rw [if_neg (Bool.eq_false_iff.1 fits)]
  split
  next a refused => exact (checked_body_refused (rest := []) life refused).symm
  next passed =>
    obtain ⟨_, isSome, _⟩ := State.bodyRefusal_eq_none_iff.1 passed
    rw [empty] at isSome
    cases isSome

theorem amendRecord_eq (b : BodyId) (x y : Body) : s.amendRecord b x y =
    let s1 := (s.writeBody b (some y)).planTo .drafted
    if y = x then s else if y.corners = x.corners then s1.settle else (s1.judgeSkew b).settle := by
  unfold State.amendRecord
  dsimp only
  rw [planAfterBodies_writeBody_some]
  split_ifs <;> rfl

/-- Settles O26: the resulting record's values and ranges, and the request by its checks on a DEFINED and an EMPTY body. -/
theorem amendBodyResult : Obligations.AmendBodyResult := by
  refine ⟨fun s b x o hw held at_ ok nodup joint => ⟨fun open_ free enter alone => ?amend,
      refusesInOrder_of_checked hw rfl (amendBody_eq held at_ ok nodup joint)⟩,
    fun x o ok => ?values, fun o => AmendBodyOps.ok_iff, fun s o hw bad => ?out, fun s b x o hw held at_ bad => ?bad,
    fun s b o hw empty at_ ok => ⟨fun bad => ?badEmpty, fun nodup joint =>
      refusesInOrder_of_checked hw rfl (amendBody_empty empty at_ ok nodup joint)⟩⟩
  case amend =>
    dsimp only
    rw [← amendRecord_eq]
    refine exec_of_checked hw rfl (amendBody_eq held at_ ok nodup joint) (passed_body open_ id free
      (passed_for.2 ⟨?enterable, passed_for.2 ⟨otherAt_eq_none alone, passed_nil⟩⟩))
    refine List.find?_eq_none.2 fun p hp refused => ?_
    simp only [Bool.and_eq_true, Bool.not_eq_true', List.contains_eq_mem, decide_eq_false_iff_not] at refused
    obtain ⟨enrolled, unseated⟩ := enter p hp refused.1
    simp [enrolled, unseated] at refused
  case values =>
    obtain ⟨position, ll, lr, tl, tr⟩ := amend_values x ok
    exact ⟨position, rfl, ll, lr, tl, tr, givenLimit_eq _ _ _, givenLimit_eq _ _ _, givenLimit_eq _ _ _, rfl⟩
  case out => exact exec_of_act hw rfl (amendBody_out fun b _ => by simp [bad])
  case bad =>
    refine exec_of_act hw rfl (amendBody_out fun c named fits => ?_)
    rw [amendBody_at at_ named, held, Bool.and_eq_true, Bool.and_eq_true] at fits
    obtain ⟨⟨ok, corners⟩, joint⟩ := fits
    rcases bad with repeated | ⟨zero, jointed⟩
    · exact repeated ((cornersOk_some_iff x ok).1 corners)
    · exact jointed ((jointOk_some_iff x ok).1 joint zero)
  case badEmpty =>
    refine exec_of_act hw rfl (amendBody_out fun c named fits => ?_)
    rw [amendBody_at at_ named, empty, Bool.and_eq_true, Bool.and_eq_true] at fits
    obtain ⟨⟨_, corners⟩, joint⟩ := fits
    rcases bad with repeated | jointed
    · exact repeated (cornersOk_none_iff.1 corners)
    · exact jointOk_none_iff.1 joint jointed

/-! ### RETIRE-BODY (R16) -/

/-- RETIRE-BODY's checks, and what it does (R8, R16). -/
theorem retireBody_eq (b : BodyId) :
    retireBody b.val s = checked s (s.bodyChecks (s.body b = none)) (done (s.retireBody b).settle) := by
  have life : s.body b = none ↔ (s.body b).isSome ≠ true := by cases s.body b <;> simp
  rw [retireBody, fin?_val]
  dsimp only
  split
  next a refused => exact (checked_body_refused (rest := []) life refused).symm
  next passed => exact (checked_body_passed (rest := []) life passed).symm

theorem retireBody_out {n : Nat} (h : 12 ≤ n) : retireBody n s = refuse s .refusedRange := by
  rw [retireBody, fin?_of_not_lt (Nat.not_lt.2 h)]

theorem body_planTo (t : State) (st : PlanState) (b : BodyId) : (t.planTo st).body b = t.body b := by
  rw [State.planTo_eq]
  rfl

/-- The plan and the skew entry after a body's retirement (R9, R107). -/
theorem retireBody_plan (s : State) (b : BodyId) : s.retireBody b =
    State.setSkew ((s.writeBody b none).planTo (if ∃ c, c ≠ b ∧ (s.body c).isSome then .drafted else .empty)) b
      false := by
  have any : (s.writeBody b none).anyBody = true ↔ ∃ c, c ≠ b ∧ (s.body c).isSome := by
    simp only [State.anyBody, List.any_eq_true, mem_ids, true_and, State.body_writeBody]
    refine exists_congr fun c => ?_
    split
    next eq => simp [eq]
    next ne => exact (and_iff_right (Ne.symm ne)).symm
  have gone (st : PlanState) : ((s.writeBody b none).planTo st).body b = none := by
    rw [body_planTo, State.body_writeBody, if_pos rfl]
  unfold State.retireBody State.planAfterBodies
  simp only [any]
  rw [State.judgeSkew, gone]

/-- Settles O27: the request by R8's checks; without a record its points name no body and its skew is absent. -/
theorem retireBodyResult : Obligations.RetireBodyResult := by
  refine ⟨fun s b x hw open_ free seats held => ⟨?retire, ?body, fun c => ?seat⟩,
    fun s n hw out => exec_of_act hw rfl (retireBody_out out),
    fun s b hw => refusesInOrder_of_checked hw rfl (retireBody_eq b)⟩
  case retire =>
    rw [← retireBody_plan]
    exact exec_of_checked hw rfl (retireBody_eq b) (passed_body (rest := []) open_ (by rw [held]; nofun) free passed_nil)
  case body => rw [State.body_writeBody, if_pos rfl]
  case seat =>
    rw [State.seat_writeBody_of_not_corner s b none _ nofun, seats.1 b x c held]
    exact if_pos (beq_self_eq_true b)

end Sys2Proof.Machine
end

section

/-! The requests on constraints and on the plan (R53 to R57, R67 to R70, R73). -/
namespace Sys2Proof.Machine

variable {s : State}

/-! ### The plan's fall (R53) -/

/-- A COMPILED plan falls to DRAFTED and any other stays: one step of the plan (R68, R70). -/
theorem draftIfCompiled_eq_planTo (s : State) :
    s.draftIfCompiled = s.planTo (if s.plan.state = .compiled then .drafted else s.plan.state) := by
  unfold State.draftIfCompiled
  split
  next compiled => rfl
  next other => rw [State.planTo_of_not_compiled s other]

theorem plan_planTo (u : State) (st : PlanState) : (u.planTo st).plan = { u.plan with state := st } := by
  rw [State.planTo_eq]

theorem planTo_frame (u : State) (st : PlanState) : u.planTo st =
    { u with plan := (u.planTo st).plan, points := (u.planTo st).points, constraints := (u.planTo st).constraints } := by
  rw [plan_planTo]
  exact u.planTo_eq st

/-! ### ADD-CONSTRAINT and RETIRE-CONSTRAINT (R67, R68, R70) -/

theorem AddConstraintOps.ok_iff {o : AddConstraintOps} : o.ok = true ↔
    (o.terms.length = 2 ∨ o.terms.length = 4) ∧ (∀ n ∈ o.terms, n < 48) ∧ o.terms.Nodup
      ∧ 1 ≤ o.limit ∧ o.limit ≤ 2000 ∧ ∀ n, o.warn = .value n → 50 ≤ n ∧ n ≤ 100 := by
  rw [← warnOk_eq_true_iff, ← distinct_eq_true_iff]
  simp only [AddConstraintOps.ok, Bool.and_eq_true, Bool.or_eq_true, beq_iff_eq, List.all_eq_true, decide_eq_true_eq,
    within_iff, and_assoc]

theorem addConstraint_out {o : AddConstraintOps} (h : ¬o.ok = true) : addConstraint o s = refuse s .refusedRange := by
  unfold addConstraint
  split
  · rfl
  · rw [if_pos (by simpa using h)]

theorem AddConstraintOps.ok_of_terms {t : Terms} {limit : Nat} {warn : OrDefault} (nodup : t.points.Nodup)
    (low : 1 ≤ limit) (high : limit ≤ 2000) (warns : ∀ n, warn = .value n → 50 ≤ n ∧ n ≤ 100) :
    AddConstraintOps.ok ⟨t.points.map (·.val), limit, warn⟩ = true := by
  refine AddConstraintOps.ok_iff.2 ⟨?_, fun n hn => ?_, nodup.map Fin.val_injective, low, high, warns⟩
  · rw [List.length_map]
    cases t with
    | two => exact .inl rfl
    | four => exact .inr rfl
  · obtain ⟨p, _, rfl⟩ := List.mem_map.1 hn
    exact p.isLt

/-- ADD-CONSTRAINT's checks, and what it does at the lowest EMPTY id (R67, R68). -/
theorem addConstraint_eq {t : Terms} {limit : Nat} {warn : OrDefault} (nodup : t.points.Nodup)
    (low : 1 ≤ limit) (high : limit ≤ 2000) (warns : ∀ n, warn = .value n → 50 ≤ n ∧ n ≤ 100) :
    addConstraint ⟨t.points.map (·.val), limit, warn⟩ s = checked s
      [refusesIf (s.plan.state = .inService) .refusedLocked, refusesIf (s.plan.state = .compiling) .busy,
       refusesFor s.groupInUse .refusedState 0x04,
       refusesFor (t.points.find? fun p => (s.point p).seat.isNone) .refusedState 0x01,
       refusesIf (∀ c, (s.constraint c).isSome) .refusedFull]
      (s.lowestEmpty.elim (refuse s .refusedFull) fun c =>
        doneWith (s.addCustom c t limit (warn.get s.limits.warnPercent)).settle [0x03, byte c.val]) := by
  rw [addConstraint, terms?_map_val]
  dsimp only
  rw [AddConstraintOps.ok_of_terms nodup low high warns, if_neg (by nofun)]
  split
  next locked => exact (checked_if_pos locked).symm
  next unlocked =>
    rw [checked_if_neg unlocked]
    split
    next compiling => exact (checked_if_pos compiling).symm
    next settled =>
      rw [checked_if_neg settled]
      split
      next g used => exact (checked_for_some used).symm
      next free =>
        rw [checked_for_none (found := s.groupInUse) free]
        split
        next p found => exact (checked_for_some found).symm
        next seated =>
          rw [checked_for_none seated]
          split
          next full => exact (checked_if_pos (s.lowestEmpty_eq_none_iff.1 full)).symm
          next c empty =>
            rw [empty]
            refine (checked_if_neg (rest := []) fun full => ?_).symm
            rw [s.lowestEmpty_eq_none_iff.2 full] at empty
            cases empty

theorem lowestEmpty_of_first {c : ConstraintId} (empty : s.constraint c = none)
    (below : ∀ d : ConstraintId, d.val < c.val → (s.constraint d).isSome) : s.lowestEmpty = some c :=
  find?_ids_eq_some_iff.2 ⟨by rw [empty]; rfl, fun d lt => by
    rw [Option.isNone_eq_false_iff]
    exact below d lt⟩

/-- RETIRE-CONSTRAINT's checks, and what it does (R70). -/
theorem retireConstraint_eq (c : ConstraintId) :
    retireConstraint c.val s = checked s
      [refusesIf (s.plan.state = .inService) .refusedLocked, refusesIf (s.plan.state = .compiling) .busy,
       refusesIf (¬∃ x ∈ s.constraint c, x.kind = .custom) .refusedState, refusesFor s.groupInUse .refusedState 0x04]
      (done (State.draftIfCompiled (s.setConstraint c none)).settle) := by
  have custom : (!(s.constraint c).any (·.kind == .custom)) = true ↔ ¬∃ x ∈ s.constraint c, x.kind = .custom := by
    rw [Bool.not_eq_true', ← Bool.not_eq_true, Option.any_eq_true]
    simp
  rw [retireConstraint, fin?_val]
  dsimp only
  split
  next locked => exact (checked_if_pos locked).symm
  next unlocked =>
    rw [checked_if_neg unlocked]
    split
    next compiling => exact (checked_if_pos compiling).symm
    next settled =>
      rw [checked_if_neg settled]
      split
      next derived => exact (checked_if_pos (custom.1 derived)).symm
      next held =>
        rw [checked_if_neg fun none => held (custom.2 none)]
        split
        next g used => exact (checked_for_some used).symm
        next free => exact (checked_for_none (rest := []) (found := s.groupInUse) free).symm

theorem retireConstraint_out {n : Nat} (h : 128 ≤ n) : retireConstraint n s = refuse s .refusedRange := by
  rw [retireConstraint, fin?_of_not_lt (Nat.not_lt.2 h)]

/-- Settles O28: both requests by their checks, and the plan's fall record by record. -/
theorem addAndRetireConstraint : Obligations.AddAndRetireConstraint := by
  refine ⟨fun s t limit warn hw nodup low high warns => ⟨fun c open_ free seated empty below => ?add,
      refusesInOrder_of_checked hw rfl (addConstraint_eq nodup low high warns)⟩,
    fun s o hw out => exec_of_act hw rfl (addConstraint_out fun ok => out (AddConstraintOps.ok_iff.1 ok)),
    fun s c x hw open_ free held custom => ?retire, fun s n hw out => exec_of_act hw rfl (retireConstraint_out out),
    fun s c hw => refusesInOrder_of_checked hw rfl (retireConstraint_eq c),
    fun u st => ⟨fun other => State.planTo_of_not_compiled u other st, fun compiled =>
      ⟨plan_planTo u st, State.point_planTo_of_compiled u compiled st, State.constraint_planTo_of_compiled u compiled st,
        planTo_frame u st⟩⟩⟩
  case add =>
    have lowest := lowestEmpty_of_first empty below
    refine (exec_of_checked hw rfl (addConstraint_eq nodup low high warns) (passed_if.2 ⟨open_.1, passed_if.2 ⟨open_.2, passed_for.2 ⟨groupInUse_eq_none free, passed_for.2
        ⟨List.find?_eq_none.2 fun p hp unseated => ?_, passed_if.2 ⟨fun full => ?_, passed_nil⟩⟩⟩⟩⟩)).trans ?_
    · have := seated p hp
      rw [Option.isNone_iff_eq_none] at unseated
      rw [unseated] at this
      cases this
    · have := full c
      rw [empty] at this
      cases this
    · rw [lowest]
      exact congrArg (fun u : State => Host.Outcome.next (s.answered u.settle 0x30 .done [0x03, byte c.val]))
        (draftIfCompiled_eq_planTo (s.setConstraint c _))
  case retire =>
    rw [show s.plan.state = (s.setConstraint c none).plan.state from rfl, ← draftIfCompiled_eq_planTo]
    exact exec_of_checked hw rfl (retireConstraint_eq c) (passed_if.2 ⟨open_.1, passed_if.2 ⟨open_.2,
      passed_if.2 ⟨not_not.2 ⟨x, held, custom⟩, passed_for.2 ⟨groupInUse_eq_none free, passed_nil⟩⟩⟩⟩)

/-! ### AMEND-CONSTRAINT (R55, R69, R100) -/

theorem AmendConstraintOps.ok_iff {o : AmendConstraintOps} : o.ok = true ↔
    o.constraint < 128 ∧ (o.limit.isSome ∨ o.warn.isSome) ∧ (∀ n, o.limit = some n → 1 ≤ n ∧ n ≤ 2000)
      ∧ ∀ n, o.warn = some (.value n) → 50 ≤ n ∧ n ≤ 100 := by
  have limits : o.limit.all (within 1 2000) = true ↔ ∀ n, o.limit = some n → 1 ≤ n ∧ n ≤ 2000 := by
    cases o.limit <;> simp [within]
  have warns : o.warn.all warnOk = true ↔ ∀ n, o.warn = some (.value n) → 50 ≤ n ∧ n ≤ 100 := by
    cases o.warn <;> simp [warnOk_eq_true_iff]
  simp only [AmendConstraintOps.ok, Bool.and_eq_true, Bool.or_eq_true, decide_eq_true_eq, limits, warns, and_assoc]

theorem amendConstraint_out {o : AmendConstraintOps} (h : ¬o.ok = true) : amendConstraint o s = refuse s .refusedRange := by
  unfold amendConstraint
  split
  · rfl
  · exact if_pos (Bool.not_eq_true' _ ▸ Bool.eq_false_iff.2 h)

theorem any_lt_iff (o : Option Nat) (v : Nat) : o.any (v < ·) = true ↔ v < o.getD v := by
  cases o <;> simp

/-- In service a field that would rise is locked (R55). -/
theorem amendLocked_iff {c : ConstraintId} {x : Constraint} (held : s.constraint c = some x) (limit warn : Option Nat) :
    s.amendLocked c limit warn = true ↔
      s.plan.state = .inService ∧ (x.limit < limit.getD x.limit ∨ x.warn < warn.getD x.warn) := by
  simp only [State.amendLocked, held, Option.any_some, Bool.and_eq_true, beq_iff_eq, Bool.or_eq_true, any_lt_iff]

theorem amendLocked_of_none {c : ConstraintId} (none : s.constraint c = none) (limit warn : Option Nat) :
    s.amendLocked c limit warn = false := by
  simp [State.amendLocked, none]

theorem amendLocked_of_not_inService (other : s.plan.state ≠ .inService) (c : ConstraintId) (limit warn : Option Nat) :
    s.amendLocked c limit warn = false := by
  simp [State.amendLocked, other]

section amend

variable {c : ConstraintId} {limit : Option Nat} {warn : Option OrDefault}

theorem amendConstraint_locked (ok : AmendConstraintOps.ok ⟨c.val, limit, warn⟩ = true)
    (locked : s.amendLocked c limit (warn.map (OrDefault.get s.limits.warnPercent)) = true) :
    amendConstraint ⟨c.val, limit, warn⟩ s = refuse s .refusedLocked := by
  rw [amendConstraint, fin?_val]
  dsimp only
  rw [ok, if_neg (by nofun), if_pos locked]

/-- AMEND-CONSTRAINT's checks where the lock allows it, and what it does (R69). -/
theorem amendConstraint_eq (ok : AmendConstraintOps.ok ⟨c.val, limit, warn⟩ = true)
    (unlocked : s.amendLocked c limit (warn.map (OrDefault.get s.limits.warnPercent)) = false) :
    amendConstraint ⟨c.val, limit, warn⟩ s = checked s
      [refusesIf (s.plan.state = .compiling) .busy, refusesIf (s.plan.state = .empty) .refusedState,
       refusesIf (s.constraint c = none) .refusedState]
      ((s.constraint c).elim (refuse s .refusedState) fun x =>
        done (s.amendFields c x limit (warn.map (OrDefault.get s.limits.warnPercent)))) := by
  rw [amendConstraint, fin?_val]
  dsimp only
  rw [ok, if_neg (by nofun), if_neg (Bool.eq_false_iff.1 unlocked)]
  split
  next compiling => exact (checked_if_pos compiling).symm
  next settled =>
    rw [checked_if_neg settled]
    split
    next empty => exact (checked_if_pos empty).symm
    next drafted =>
      rw [checked_if_neg drafted]
      split
      next none => exact (checked_if_pos none).symm
      next x held =>
        rw [held]
        exact (checked_if_neg (rest := []) nofun).symm

/-- The fields written, and the evaluation of a record that changed in a judging plan (R69, R100). -/
theorem amendFields_eq {x : Constraint} (settled : s.plan.state ≠ .compiling) (some : s.plan.state ≠ .empty)
    (limit warn : Option Nat) : s.amendFields c x limit warn =
      let new : Constraint := { x with limit := limit.getD x.limit, warn := warn.getD x.warn }
      let s1 := s.setConstraint c (.some new)
      if new = x then s else if s.plan.state = .drafted then s1.settle else (s1.evaluate c).settle := by
  have judging (t : State) (h : t.plan = s.plan) : t.judging = !decide (s.plan.state = .drafted) := by
    rw [State.judging, h]
    cases plan : s.plan.state with
    | compiling => exact absurd plan settled
    | empty => exact absurd plan some
    | _ => rfl
  unfold State.amendFields
  dsimp only
  have judged := judging (s.setConstraint c (.some { x with limit := limit.getD x.limit, warn := warn.getD x.warn })) rfl
  split
  next same => rfl
  next changed =>
    rw [judged]
    by_cases drafted : s.plan.state = .drafted
    · rw [if_pos drafted, decide_eq_true drafted, if_neg (by nofun)]
    · rw [if_neg drafted, decide_eq_false drafted, if_pos (by rfl)]

end amend

/-- Settles O29: the request by its lock, then by its checks. -/
theorem amendConstraintResult : Obligations.AmendConstraintResult := by
  refine ⟨fun s c x limit warn hw held settled some given limits warns => ⟨fun allowed => ?amend, fun inService rises => ?locked⟩,
    fun s o hw out => exec_of_act hw rfl (amendConstraint_out fun ok => out (AmendConstraintOps.ok_iff.1 ok)),
    fun s c limit warn hw given limits warns unlocked => ?checks⟩
  all_goals
    have ok : AmendConstraintOps.ok ⟨c.val, limit, warn⟩ = true :=
      AmendConstraintOps.ok_iff.2 ⟨c.isLt, given, limits, warns⟩
  case amend =>
    have unlocked : s.amendLocked c limit (warn.map (OrDefault.get s.limits.warnPercent)) = false :=
      Bool.eq_false_iff.2 fun locked => by
        obtain ⟨inService, rises⟩ := (amendLocked_iff held _ _).1 locked
        obtain ⟨noLimit, noWarn⟩ := allowed inService
        exact rises.elim (Nat.not_lt.2 noLimit) (Nat.not_lt.2 noWarn)
    refine (exec_of_checked hw rfl (amendConstraint_eq ok unlocked) (passed_if.2 ⟨settled, passed_if.2 ⟨some,
      passed_if.2 ⟨by rw [held]; nofun, passed_nil⟩⟩⟩)).trans ?_
    rw [held]
    exact congrArg (fun t => Host.Outcome.next (s.answered t 0x31 .done [])) (amendFields_eq settled some _ _)
  case locked =>
    exact exec_of_act hw rfl (amendConstraint_locked ok ((amendLocked_iff held _ _).2 ⟨inService, rises⟩))
  case checks =>
    refine refusesInOrder_of_checked hw rfl (amendConstraint_eq ok ?_)
    exact unlocked.elim (amendLocked_of_not_inService · c _ _) (amendLocked_of_none · _ _)

/-! ### COMPILE and RELEASE-PLAN (R53, R56, R57, R73) -/

/-- COMPILE's checks, and what it does (R56). -/
theorem compile_eq (s : State) : compile () s = checked s
    [refusesIf (s.plan.state = .inService) .refusedLocked, refusesIf (s.plan.state = .compiling) .busy,
     refusesIf (s.plan.state = .empty) .refusedState, refusesFor s.groupInUse .refusedState 0x04]
    (accepted s.beginCompile.settle) := by
  unfold compile
  split
  next locked => exact (checked_if_pos locked).symm
  next unlocked =>
    rw [checked_if_neg unlocked]
    split
    next compiling => exact (checked_if_pos compiling).symm
    next settled =>
      rw [checked_if_neg settled]
      split
      next empty => exact (checked_if_pos empty).symm
      next drafted =>
        rw [checked_if_neg drafted]
        split
        next g used => exact (checked_for_some used).symm
        next free => exact (checked_for_none (rest := []) (found := s.groupInUse) free).symm

/-- RELEASE-PLAN's checks, and what it does (R73). -/
theorem releasePlan_eq (s : State) : releasePlan () s = checked s
    [refusesIf (s.plan.state ≠ .inService) .refusedState, refusesFor s.groupInUse .refusedState 0x04,
     refusesFor (s.jog.active.map (·.point)) .refusedState 0x01,
     refusesFor (lowest fun p => (s.point p).life == .planned && s.raised p) .refusedState 0x01]
    (done { s with plan := { s.plan with state := .compiled } }) := by
  unfold releasePlan
  split
  next other => exact (checked_if_pos other).symm
  next inService =>
    rw [checked_if_neg inService]
    split
    next g used => exact (checked_for_some used).symm
    next free =>
      rw [checked_for_none (found := s.groupInUse) free]
      split
      next j active => exact (checked_for_some (by rw [active]; rfl)).symm
      next idle =>
        rw [checked_for_none (by rw [idle]; rfl)]
        split
        next p found => exact (checked_for_some found).symm
        next grounded => exact (checked_for_none (rest := []) grounded).symm

theorem filter_custom (x : Constraint) :
    (some x).filter (fun x => x.kind == .custom) = if x.kind ≠ .custom then none else some x := by
  by_cases custom : x.kind = .custom <;> simp [Option.filter, custom]

/-- A constraint record after an accepted COMPILE (R53, R57). -/
theorem constraint_beginCompile (c : ConstraintId) : s.beginCompile.constraint c =
    match s.constraint c with
    | none => none
    | some x =>
      if x.kind ≠ .custom then none
      else if s.plan.state = .compiled then some { x with state := .idle, last := none } else some x := by
  have emptied : s.beginCompile.constraint c =
      ((s.planTo .compiling).constraint c).filter fun x => x.kind == .custom := Table.at_mapAll _ _ c
  rw [emptied]
  by_cases compiled : s.plan.state = .compiled
  · rw [State.constraint_planTo_of_compiled s compiled]
    cases s.constraint c with
    | none => rfl
    | some x =>
      refine (filter_custom x.fall).trans ?_
      simp only [compiled, if_true]
      rfl
  · rw [State.planTo_of_not_compiled s compiled]
    show (s.constraint c).filter _ = _
    cases s.constraint c with
    | none => rfl
    | some x =>
      refine (filter_custom x).trans ?_
      simp only [compiled, if_false]

theorem point_beginCompile (p : PointId) : s.beginCompile.point p =
    if s.plan.state = .compiled then
      { s.point p with life := if (s.point p).life = .planned then .bound else (s.point p).life, index := [] }
    else s.point p := by
  show (s.planTo .compiling).point p = _
  split
  next compiled => exact State.point_planTo_of_compiled s compiled _ p
  next other =>
    rw [State.planTo_of_not_compiled s other]
    rfl

theorem beginCompile_eq (s : State) : s.beginCompile = { s with
    plan := s.beginCompile.plan, constraints := s.beginCompile.constraints, points := s.beginCompile.points } := by
  have fall := s.planTo_eq .compiling
  unfold State.beginCompile State.emptyDerived
  rw [fall]

/-- Settles O33: both requests by their checks, and an accepted COMPILE record by record. -/
theorem compileAndRelease : Obligations.CompileAndRelease := by
  refine ⟨fun s hw ready free => ⟨?compile, ?plan, fun c => constraint_beginCompile c, fun p => point_beginCompile p,
      beginCompile_eq s⟩, fun s hw => refusesInOrder_of_checked hw rfl (compile_eq s),
    fun s hw inService free idle grounded => ?release, fun s hw => refusesInOrder_of_checked hw rfl (releasePlan_eq s)⟩
  case compile =>
    have other (st : PlanState) (h : st ≠ .drafted ∧ st ≠ .compiled) : ¬s.plan.state = st := fun eq =>
      ready.elim (fun e => h.1 (eq ▸ e)) fun e => h.2 (eq ▸ e)
    exact exec_of_checked hw rfl (compile_eq s) (passed_if.2 ⟨other _ (by decide), passed_if.2 ⟨other _ (by decide),
      passed_if.2 ⟨other _ (by decide), passed_for.2 ⟨groupInUse_eq_none free, passed_nil⟩⟩⟩⟩)
  case plan =>
    exact congrArg (fun plan : Plan =>
      { plan with compilation := some ⟨s.limits.jointLimit, s.limits.warnPercent, Config.compileUs⟩ }) (plan_planTo s _)
  case release =>
    refine exec_of_checked hw rfl (releasePlan_eq s) (passed_if.2 ⟨not_not.2 inService, passed_for.2
      ⟨groupInUse_eq_none free, passed_for.2 ⟨by rw [idle]; rfl, passed_for.2 ⟨find?_ids_eq_none_iff.2 fun p => ?_,
        passed_nil⟩⟩⟩⟩)
    rw [Bool.eq_false_iff, ne_eq, Bool.and_eq_true, beq_iff_eq]
    rintro ⟨planned, raised⟩
    rw [grounded p planned] at raised
    cases raised

end Sys2Proof.Machine
end

section

/-! FORM-GROUP and DISBAND (R110 to R115, R137), and SET-LIMITS (R197). -/
namespace Sys2Proof.Machine

variable {s : State}

/-! ### Checks that are found as they stand -/

theorem checked_found {o : Option (Status × List Byte)} {f : Status × List Byte}
    {rest : List (Option (Status × List Byte))} {r : Answer × State} (h : o = some f) :
    checked s (o :: rest) r = (⟨f.1, f.2⟩, s) := by
  rw [h]
  rfl

theorem checked_not_found {o : Option (Status × List Byte)} {rest : List (Option (Status × List Byte))}
    {r : Answer × State} (h : o = none) : checked s (o :: rest) r = checked s rest r := by
  rw [h]
  rfl

theorem passed_cons {o : Option (Status × List Byte)} {rest : List (Option (Status × List Byte))} :
    (∀ f ∈ o :: rest, f = none) ↔ o = none ∧ ∀ f ∈ rest, f = none := List.forall_mem_cons

/-! ### SET-LIMITS (R197) -/

theorem Limits.ok_iff {o : Limits} : o.ok = true ↔
    100 ≤ o.liftCeiling ∧ o.liftCeiling ≤ 25000 ∧ 10 ≤ o.maxStep ∧ o.maxStep ≤ 500
      ∧ 5 ≤ o.followWindow ∧ o.followWindow ≤ 200 ∧ 1 ≤ o.arrivalBand ∧ o.arrivalBand ≤ 50
      ∧ 5 ≤ o.restBand ∧ o.restBand ≤ 100 ∧ 10 ≤ o.contactLoad ∧ o.contactLoad ≤ 500
      ∧ 5 ≤ o.jointLimit ∧ o.jointLimit ≤ 500 ∧ 50 ≤ o.warnPercent ∧ o.warnPercent ≤ 100
      ∧ 30 ≤ o.shareLimit ∧ o.shareLimit ≤ 90 ∧ 1 ≤ o.stageTimeout ∧ o.stageTimeout ≤ 255 := by
  simp only [Limits.ok, Bool.and_eq_true, within_iff, and_assoc]

theorem setLimits_out {o : Limits} (out : ¬o.ok = true) : setLimits o s = refuse s .refusedRange :=
  if_pos (Bool.not_eq_true' _ ▸ Bool.eq_false_iff.2 out)

/-- SET-LIMITS in range, by its two checks (R197). -/
theorem setLimits_eq {o : Limits} (ok : o.ok = true) : setLimits o s = checked s
    [refusesIf (s.limitsLock = true) .refusedLocked, refusesIf (s.plan.state = .inService) .refusedState]
    (done { s with limits := o }.settle) := by
  rw [setLimits, ok, if_neg (by nofun)]
  split
  next locked => exact (checked_if_pos locked).symm
  next unlocked =>
    rw [checked_if_neg unlocked]
    split
    next inService => exact (checked_if_pos inService).symm
    next other => exact (checked_if_neg (rest := []) other).symm

/-- Settles O57: SET-LIMITS by its two checks, and what is written stands already where the values are those held. -/
theorem setLimitsResult : Obligations.SetLimitsResult := by
  intro s o hw inRange
  have refused {st : Status} (ok : inRange) (h : [refusesIf (s.limitsLock = true) .refusedLocked,
      refusesIf (s.plan.state = .inService) .refusedState].findSome? id = some (st, [])) :
      exec (.setLimits (.takes o)) s = .next (s.answered s 0x90 st []) :=
    refusesInOrder_of_checked hw rfl (setLimits_eq (Limits.ok_iff.2 ok)) _ h
  have accepted (ok : inRange) (unlocked : s.limitsLock = false) (other : s.plan.state ≠ .inService) :
      exec (.setLimits (.takes o)) s = .next (s.answered { s with limits := o }.settle 0x90 .done []) :=
    exec_of_checked hw rfl (setLimits_eq (Limits.ok_iff.2 ok))
      (passed_if.2 ⟨Bool.eq_false_iff.1 unlocked, passed_if.2 ⟨other, passed_nil⟩⟩)
  refine ⟨fun out => exec_of_act hw rfl (setLimits_out fun ok => out (Limits.ok_iff.1 ok)),
    fun ok locked => refused ok ?_, fun ok unlocked inService => refused ok ?_, accepted,
    fun ok unlocked other settled same => (accepted ok unlocked other).trans ?_⟩
  · rw [refusesIf, if_pos locked]
    rfl
  · rw [refusesIf, if_neg (Bool.eq_false_iff.1 unlocked), refusesIf, if_pos inService]
    rfl
  · rw [same]
    exact congrArg (fun t => Host.Outcome.next (s.answered t 0x90 .done [])) (State.settle_of_settled settled)

/-! ### FORM-GROUP (R113, R115) -/

theorem FormGroupOps.ok_iff {o : FormGroupOps} : o.ok = true ↔
    o.group < 4 ∧ 1 ≤ o.bodies.length ∧ o.bodies.length ≤ 12 ∧ (∀ n ∈ o.bodies, n < 12) ∧ o.bodies.Nodup := by
  rw [← distinct_eq_true_iff]
  simp only [FormGroupOps.ok, Bool.and_eq_true, decide_eq_true_eq, List.all_eq_true, within_iff, and_assoc]

theorem formGroup_out {o : FormGroupOps} (out : ¬o.ok = true) : formGroup o s = refuse s .refusedRange := by
  unfold formGroup
  split
  · exact if_pos (Bool.not_eq_true' _ ▸ Bool.eq_false_iff.2 out)
  · rfl

theorem FormGroupOps.ok_of_ids (g : GroupId) {bs : List BodyId} (nodup : bs.Nodup) (some : 1 ≤ bs.length) :
    FormGroupOps.ok ⟨g.val, bs.map (·.val)⟩ = true := by
  refine FormGroupOps.ok_iff.2 ⟨g.isLt, ?_, ?_, fun n hn => ?_, nodup.map Fin.val_injective⟩
  · rwa [List.length_map]
  · rw [List.length_map]
    exact length_le_of_nodup nodup
  · obtain ⟨b, _, rfl⟩ := List.mem_map.1 hn
    exact b.isLt

/-- A point that may not join a group (R113). -/
theorem not_mayJoinGroup (p : PointId) : (!s.mayJoinGroup p) =
    ((s.point p).life != .planned || (s.point p).health != .live || s.jog.active.any fun j => j.point == p) := by
  rw [State.mayJoinGroup, Bool.not_and, Bool.not_and, Bool.not_not]
  rfl

/-- The payload of a refusal that a body's joints cause, as R113 states it. -/
def splitPayload (s : State) (bs : List BodyId) (y : BodyId × Body) : Option (List Byte) :=
  let lead := (s.leadingNeighbour y.2).map (·.1)
  if y.2.joint = .closed ∧ (∀ c ∈ lead, c ∉ bs) then some [0x08, byte y.1.val, encId lead]
  else (s.trailingNeighbour y.2).bind fun z =>
    if z.2.joint = .closed ∧ z.1 ∉ bs then some [0x08, byte z.1.val, byte y.1.val] else none

theorem unlisted_iff (o : Option BodyId) (bs : List BodyId) : (!o.any bs.contains) = true ↔ ∀ c ∈ o, c ∉ bs := by
  cases o <;> simp

theorem splitAt_bytes (bs : List BodyId) (y : BodyId × Body) :
    (s.splitAt bs y).map Detail.bytes = splitPayload s bs y := by
  unfold State.splitAt splitPayload
  dsimp only
  simp only [unlisted_iff]
  split
  next split_ => rfl
  next joined =>
    unfold State.trailingJoint
    cases s.trailingNeighbour y.2 with
    | none => rfl
    | some z =>
      have unlisted : (!bs.contains z.1) = true ↔ z.1 ∉ bs := by simp
      simp only [Option.map_some, Option.bind_some, unlisted]
      split <;> rfl

/-- The refusal for a joint that the group would split (R113). -/
theorem findSome_splitAt (bs : List BodyId) : ((s.inPosition bs).findSome? (s.splitAt bs)).map Detail.bytes =
    (s.bodiesInOrder.filter fun y => bs.contains y.1).findSome? (splitPayload s bs) := by
  rw [List.map_findSome?]
  exact congrArg (fun f => List.findSome? f _) (funext (splitAt_bytes bs))

/-- FORM-GROUP's checks, and what it does (R113, R115). -/
theorem formGroup_eq (g : GroupId) {bs : List BodyId} (nodup : bs.Nodup) (some : 1 ≤ bs.length) :
    formGroup ⟨g.val, bs.map (·.val)⟩ s = checked s
      [refusesIf (s.plan.state = .compiling) .busy,
       refusesIf ((s.group g).state ≠ .free) .refusedState [0x06, byte (s.group g).state.code],
       refusesIf (s.plan.state ≠ .compiled ∧ s.plan.state ≠ .inService) .refusedState,
       refusesFor (bs.find? fun b => !((s.body b).any fun x => x.group.isNone)) .refusedState 0x02,
       refusesFor ((s.cornersOf bs).find? fun p =>
           (s.point p).life != .planned || (s.point p).health != .live || (s.jog.active.any fun j => j.point == p))
         .refusedState 0x01,
       ((s.bodiesInOrder.filter fun y => bs.contains y.1).findSome? (splitPayload s bs)).map fun payload =>
         (.refusedState, payload)]
      (done (s.form g bs).settle) := by
  have unfit : (!(s.plan.state == .compiled || s.plan.state == .inService)) = true ↔
      s.plan.state ≠ .compiled ∧ s.plan.state ≠ .inService := by simp
  rw [formGroup, fin?_val, idList?_map_val]
  dsimp only
  rw [FormGroupOps.ok_of_ids g nodup some, if_neg (by nofun)]
  simp only [State.compiling_eq_true_iff]
  split
  next compiling => exact (checked_if_pos compiling).symm
  next settled =>
    rw [checked_if_neg settled, formChecked]
    split
    next used => exact (checked_if_pos used).symm
    next free =>
      rw [checked_if_neg free]
      split
      next other => exact (checked_if_pos (unfit.1 other)).symm
      next compiled =>
        rw [checked_if_neg fun other => compiled (unfit.2 other)]
        split
        next b found => exact (checked_for_some found).symm
        next freeBodies =>
          rw [checked_for_none (found := bs.find? fun b => !((s.body b).any fun x : Body => x.group.isNone)) freeBodies]
          simp only [not_mayJoinGroup]
          split
          next p found => exact (checked_for_some found).symm
          next joining =>
            rw [checked_for_none joining, ← findSome_splitAt]
            split
            next d found =>
              refine (checked_found (f := (.refusedState, d.bytes)) ?_).symm
              rw [found]
              rfl
            next whole =>
              refine (checked_not_found (rest := []) ?_).symm
              rw [whole]
              rfl

theorem body_of_bodyAt {n : Nat} {b : BodyId} {x : Body} (h : s.bodyAt n = some (b, x)) : s.body b = some x := by
  obtain ⟨c, _, found⟩ := List.exists_of_findSome?_eq_some h
  split at found
  next y held =>
    split at found
    · cases found
      exact held
    · cases found
  next => cases found

theorem body_of_mem_bodiesInOrder {b : BodyId} {x : Body} (h : (b, x) ∈ s.bodiesInOrder) : s.body b = some x := by
  obtain ⟨pos, _, found⟩ := List.mem_filterMap.1 h
  exact body_of_bodyAt found

/-- A listed body whose CLOSED joints stay within the list splits nothing (R113). -/
theorem splitPayload_eq_none {bs : List BodyId} {y : BodyId × Body}
    (leading : y.2.joint = .closed → ∃ c x, s.leadingNeighbour y.2 = some (c, x) ∧ c ∈ bs)
    (trailing : ∀ c x, s.trailingNeighbour y.2 = some (c, x) → x.joint = .closed → c ∈ bs) :
    splitPayload s bs y = none := by
  unfold splitPayload
  dsimp only
  rw [if_neg]
  · cases next : s.trailingNeighbour y.2 with
    | none => rfl
    | some z => exact if_neg fun h => h.2 (trailing z.1 z.2 next h.1)
  · rintro ⟨closed, unlisted⟩
    obtain ⟨c, x, eq, listed⟩ := leading closed
    rw [eq] at unlisted
    exact unlisted c rfl listed

/-! ### What forming and disbanding write (R115, R137) -/

/-- A group leaves a point's motion fields clear (R115, R137). -/
def Point.joins (g : Option GroupId) (x : Point) : Point :=
  { x with group := g, base := none, target := none, arrived := false, followHeld := false }

/-- The records of a list of bodies and of a list of points handed to a group or taken from it. -/
def State.handTo (s : State) (o : Option GroupId) (bodies : List BodyId) (points : List PointId) : State :=
  (s.mapBodies fun b x => if bodies.contains b then { x with group := o } else x).mapPoints fun p x =>
    if points.contains p then x.joins o else x

section handed

variable (o : Option GroupId) (bs : List BodyId) (ps : List PointId)

theorem body_handTo (b : BodyId) : (s.handTo o bs ps).body b =
    if b ∈ bs then (s.body b).map fun x => { x with group := o } else s.body b := by
  refine (Table.at_mapAll s.bodies _ b).trans ?_
  simp only [List.contains_iff_mem]
  split
  next => rfl
  next => exact Option.map_id'

theorem point_handTo (p : PointId) : (s.handTo o bs ps).point p = if p ∈ ps then (s.point p).joins o else s.point p := by
  refine (Table.at_mapAll s.points _ p).trans ?_
  simp only [List.contains_iff_mem]
  rfl

end handed

theorem form_eq (s : State) (g : GroupId) (bs : List BodyId) : s.form g bs =
    (s.handTo (some g) bs (s.cornersOf bs)).setGroup g
      { Group.free with state := .formed, members := (s.bodiesInOrder.filter fun y => bs.contains y.1).map (·.1) } := rfl

theorem disband_eq (s : State) (g : GroupId) :
    s.disband g = (s.handTo none (s.group g).members (s.members g)).setGroup g Group.free := rfl

/-- DISBAND's checks, and what it does (R137). -/
theorem disbandGroup_eq (g : GroupId) : disbandGroup g.val s = checked s
    [refusesIf (s.plan.state = .compiling) .busy,
     refusesIf ((s.group g).state ≠ .formed ∧ (s.group g).state ≠ .arrived) .refusedState]
    (done (s.disband g).settle) := by
  have atRest : ((s.group g).state == .formed || (s.group g).state == .arrived) = true ↔
      ¬((s.group g).state ≠ .formed ∧ (s.group g).state ≠ .arrived) := by
    rw [Bool.or_eq_true, beq_iff_eq, beq_iff_eq, not_and_or, not_not, not_not]
  rw [disbandGroup, fin?_val]
  dsimp only
  simp only [State.compiling_eq_true_iff]
  split
  next compiling => exact (checked_if_pos compiling).symm
  next settled =>
    rw [checked_if_neg settled]
    split
    next rest => exact (checked_if_neg (rest := []) (atRest.1 rest)).symm
    next moving => exact (checked_if_pos (not_not.1 fun h => moving (atRest.2 h))).symm

/-- Settles O35: both requests by their checks, and what they write record by record. -/
theorem formAndDisband : Obligations.FormAndDisband := by
  refine ⟨fun s g bs hw nodup some => ⟨fun free fit bodies points joints => ?form,
      refusesInOrder_of_checked hw rfl (formGroup_eq g nodup some)⟩,
    fun s g bs => ⟨State.group_setGroup_self _ g _, body_handTo _ bs (s.cornersOf bs),
      point_handTo _ bs _,
      fun h ne => State.group_setGroup_of_ne _ ne.symm _, rfl⟩,
    fun s o hw out => exec_of_act hw rfl (formGroup_out fun ok => out (FormGroupOps.ok_iff.1 ok)),
    fun s bs => ⟨ascending_cornersOf s bs, fun _ => rfl, State.mem_cornersOf_iff s bs⟩,
    fun s g hw settled rest => ⟨?disband, State.group_setGroup_self _ g _, body_handTo _ _ (s.members g),
      point_handTo _ (s.group g).members _,
      fun h ne => State.group_setGroup_of_ne _ ne.symm _, rfl⟩,
    fun s n hw out => exec_of_act (r := refuse s .refusedRange) hw rfl (by rw [disbandGroup, fin?_of_not_lt (by omega)]),
    fun s g hw => refusesInOrder_of_checked hw rfl (disbandGroup_eq g)⟩
  case form =>
    refine exec_of_checked hw rfl (formGroup_eq g nodup some) (passed_if.2 ⟨fun compiling => ?_, passed_if.2
      ⟨not_not.2 free, passed_if.2 ⟨fun other => fit.elim other.1 other.2, passed_for.2 ⟨List.find?_eq_none.2 ?_,
        passed_for.2 ⟨List.find?_eq_none.2 ?_, passed_cons.2 ⟨?_, passed_nil⟩⟩⟩⟩⟩⟩)
    · rw [compiling] at fit
      exact fit.elim nofun nofun
    · intro b hb
      obtain ⟨x, held, alone⟩ := bodies b hb
      simp [held, alone]
    · intro p hp
      obtain ⟨planned, live, noJog⟩ := points p hp
      simpa [planned, live, Option.any_eq_true] using noJog
    · rw [Option.map_eq_none_iff, List.findSome?_eq_none_iff]
      rintro ⟨b, x⟩ hy
      rw [List.mem_filter, List.contains_iff_mem] at hy
      obtain ⟨leading, trailing⟩ := joints b hy.2 x (body_of_mem_bodiesInOrder hy.1)
      exact splitPayload_eq_none leading trailing
  case disband =>
    exact exec_of_checked hw rfl (disbandGroup_eq g) (passed_if.2 ⟨settled, passed_if.2
      ⟨fun other => rest.elim other.1 other.2, passed_nil⟩⟩)

end Sys2Proof.Machine
end

section

/-! START (R54, R116 to R119), the stages (R119, R124), CONTINUE and AMEND-TRAVEL (R125 to R127). -/
namespace Sys2Proof.Machine

variable {s : State}

/-! ### Stages (R119, R124) -/

/-- A member point at the start of a stage (R119). -/
theorem point_startStage {g : GroupId} {r : Run} (h : (s.group g).run = some r) (p : PointId) :
    (s.startStage g).point p = if p ∈ s.members g then
      { s.point p with
        target := some (((s.point p).base.getD 0 : Int) + direction r.travel * (r.targetProgress : Int)).toNat
        arrived := false
        followHeld := false } else s.point p := by
  unfold State.startStage
  rw [h]
  refine (Table.at_mapAll s.points _ p).trans ?_
  simp only [List.contains_iff_mem]
  rfl

theorem startStage_frame (s : State) (g : GroupId) :
    s.startStage g = { s with points := (s.startStage g).points, groups := (s.startStage g).groups } := by
  unfold State.startStage
  split <;> rfl

/-- Settles O37: both from the run held, the completion by its three outcomes. -/
theorem stagesStartAndComplete : Obligations.StagesStartAndComplete := by
  refine ⟨fun s g r held => ⟨?group, point_startStage held, fun h ne => ?other, startStage_frame s g⟩,
    fun s g r held => ⟨fun last => ?last, fun more some whole => ?gap, fun more part => ?next⟩⟩
  case group =>
    rw [State.group_startStage held, if_pos rfl]
    rfl
  case other => rw [State.group_startStage held, if_neg ne.symm]
  all_goals rw [State.completeStage_of_run held]
  case last =>
    rw [if_pos last]
    rfl
  case gap =>
    rw [if_neg more, if_pos ⟨some, whole⟩]
    rfl
  case next =>
    rw [if_neg more, if_neg fun h => part.elim h.1 fun ne => ne h.2]
    rfl

/-! ### START (R116 to R119) -/

theorem targetOk_iff {x : Point} {ceiling : Nat} {t : Int} : x.targetOk ceiling t = true ↔
    ∃ r k, x.rest = some r ∧ x.ratedStroke = some k ∧ (r : Int) ≤ t ∧ t ≤ ((r + min k ceiling : Nat) : Int) := by
  unfold Point.targetOk Point.ceiling
  cases x.rest with
  | none => simp
  | some r =>
    cases x.ratedStroke with
    | none => simp
    | some k => simp

theorem runOk_iff {x : Point} {ceiling : Nat} {travel : Int} {step h : Nat} (reported : x.height = some h) :
    x.runOk ceiling travel step = true ↔
      x.targetOk ceiling ((h : Int) + travel.sign * ((min step travel.natAbs : Nat) : Int)) = true
        ∧ x.targetOk ceiling ((h : Int) + travel) = true := by
  rw [Point.runOk, reported, Bool.and_eq_true]
  rfl

theorem travelOk_iff {t : Int} : travelOk t = true ↔ t ≠ 0 ∧ t.natAbs ≤ 25000 := by
  rw [travelOk, Bool.and_eq_true, bne_iff_ne, decide_eq_true_eq]
  rfl

theorem StartOps.ok_iff {o : StartOps} {most : Nat} : o.ok most = true ↔
    o.group < 4 ∧ o.travel ≠ 0 ∧ o.travel.natAbs ≤ 25000 ∧ 10 ≤ o.step ∧ o.step ≤ most ∧ o.gap ≤ 64 := by
  simp only [StartOps.ok, Bool.and_eq_true, decide_eq_true_eq, travelOk_iff, within_iff, Nat.zero_le, true_and, and_assoc]

theorem startRun_out {o : StartOps} (out : ¬o.ok s.limits.maxStep = true) : startRun o s = refuse s .refusedRange := by
  unfold startRun
  split
  · rfl
  · exact if_pos (Bool.not_eq_true' _ ▸ Bool.eq_false_iff.2 out)

theorem not_mayRun (x : Point) : (!x.mayRun) = (x.health != .live || x.inhibit || x.conditions != 0) := by
  rw [Point.mayRun, Bool.not_and, Bool.not_and, Bool.not_not]
  rfl

/-- A group that neither is FORMED nor has ARRIVED may not start (R117). -/
theorem not_startable_iff (x : GroupState) :
    (!(x == .formed || x == .arrived)) = true ↔ x ≠ .formed ∧ x ≠ .arrived := by
  simp

/-- START's checks on a request in range, and what it does (R116 to R118). -/
theorem startRun_eq {g : GroupId} {o : StartOps} (named : o.group = g.val) (ok : o.ok s.limits.maxStep = true) :
    startRun o s = checked s
      [refusesFor ((s.members g).find? fun p => !(s.point p).runOk s.limits.liftCeiling o.travel o.step)
         .refusedRange 0x01,
       refusesIf (s.plan.state = .compiling) .busy,
       refusesIf ((s.group g).state ≠ .formed ∧ (s.group g).state ≠ .arrived) .refusedState
         [0x06, byte (s.group g).state.code],
       refusesIf (s.stop = true) .refusedState,
       refusesFor s.openGate .refusedState 0x05,
       refusesFor ((s.members g).find? fun p =>
           (s.point p).health != .live || (s.point p).inhibit || (s.point p).conditions != 0) .refusedState 0x01,
       refusesFor (lowest fun c => (s.members g).any (fun p => (s.point p).index.contains c)
           && (s.constraint c).any fun x => x.state == .breach || x.state == .blind) .refusedState 0x03,
       refusesFor ((s.group g).members.find? fun b => s.skew.at b) .refusedState 0x02]
      (done (s.beginRun g o).settle) := by
  rw [startRun, named, fin?_val]
  dsimp only
  rw [ok, if_neg (by nofun)]
  simp only [State.compiling_eq_true_iff]
  split
  next p found => exact (checked_for_some found).symm
  next fits =>
    rw [checked_for_none fits]
    split
    next compiling => exact (checked_if_pos compiling).symm
    next settled =>
      rw [checked_if_neg settled, startChecked]
      simp only [not_startable_iff]
      split
      next moving => exact (checked_if_pos moving).symm
      next rest =>
        rw [checked_if_neg rest]
        split
        next stopped => exact (checked_if_pos stopped).symm
        next clear =>
          rw [checked_if_neg clear]
          split
          next l found => exact (checked_for_some found).symm
          next shut =>
            rw [checked_for_none (found := s.openGate) shut]
            simp only [not_mayRun]
            split
            next p found => exact (checked_for_some found).symm
            next free =>
              rw [checked_for_none free]
              split
              next c found => exact (checked_for_some found).symm
              next sound =>
                rw [checked_for_none (found := lowest fun c =>
                  (s.members g).any (fun p => (s.point p).index.contains c)
                    && (s.constraint c).any fun x : Constraint => x.state == .breach || x.state == .blind) sound]
                split
                next b found => exact (checked_for_some found).symm
                next level => exact (checked_for_none (rest := []) level).symm

/-! ### What an accepted START writes (R54, R118, R119) -/

/-- The records before the first stage of a run starts: the base heights taken, the run written (R118). -/
def State.withRun (s : State) (g : GroupId) (r : Run) : State :=
  (s.mapPoints fun p x => if (s.members g).contains p then { x with base := x.height } else x).setGroup g
    { s.group g with run := some r }

theorem beginRun_eq (s : State) (g : GroupId) (o : StartOps) : s.beginRun g o =
    ((s.withRun g ⟨o.travel, o.step, o.gap, ceilDiv o.travel.natAbs o.step, 0, 0⟩).startStage g).enterService := rfl

section withRun

variable {g : GroupId} {r : Run}

theorem group_withRun (h : GroupId) : (s.withRun g r).group h = if g = h then { s.group g with run := some r } else s.group h :=
  State.group_setGroup _ _ _ _

theorem members_withRun : (s.withRun g r).members g = s.members g := by
  show s.cornersOf ((s.withRun g r).group g).members = _
  rw [group_withRun, if_pos rfl]
  rfl

theorem point_withRun (p : PointId) : (s.withRun g r).point p =
    if p ∈ s.members g then { s.point p with base := (s.point p).height } else s.point p := by
  refine (Table.at_mapAll s.points _ p).trans ?_
  simp only [List.contains_iff_mem]
  rfl

end withRun

theorem enterService_frame (s : State) :
    s.enterService =
      { s with plan := { s.plan with state := if s.plan.state = .compiled then .inService else s.plan.state } } := by
  unfold State.enterService
  split <;> rfl

section beginRun

variable (s) (g : GroupId) (o : StartOps)

/-- The group and the plan after an accepted START, and what it leaves (R54, R118). -/
theorem beginRun_frame : s.beginRun g o = { s with
    points := (s.beginRun g o).points, groups := (s.beginRun g o).groups
    plan := { s.plan with state := if s.plan.state = .compiled then .inService else s.plan.state } } := by
  rw [beginRun_eq, enterService_frame, startStage_frame]
  rfl

theorem group_beginRun (h : GroupId) : (s.beginRun g o).group h = if g = h then
    { s.group g with
      state := .staging
      run := some ⟨o.travel, o.step, o.gap, ceilDiv o.travel.natAbs o.step, 0, 0⟩
      timer := some (s.limits.stageTimeout * Config.usPerSecond) } else s.group h := by
  have run : ((s.withRun g ⟨o.travel, o.step, o.gap, ceilDiv o.travel.natAbs o.step, 0, 0⟩).group g).run =
      some ⟨o.travel, o.step, o.gap, ceilDiv o.travel.natAbs o.step, 0, 0⟩ := by
    rw [group_withRun, if_pos rfl]
  rw [beginRun_eq, enterService_frame]
  refine (State.group_startStage run h).trans ?_
  simp only [group_withRun, if_true]
  split <;> rfl

theorem point_beginRun (p : PointId) : (s.beginRun g o).point p = if p ∈ s.members g then
    { s.point p with
      base := (s.point p).height
      target := some (((s.point p).height.getD 0 : Int)
        + o.travel.sign * ((min o.step o.travel.natAbs : Nat) : Int)).toNat
      arrived := false
      followHeld := false } else s.point p := by
  have run : ((s.withRun g ⟨o.travel, o.step, o.gap, ceilDiv o.travel.natAbs o.step, 0, 0⟩).group g).run =
      some ⟨o.travel, o.step, o.gap, ceilDiv o.travel.natAbs o.step, 0, 0⟩ := by
    rw [group_withRun, if_pos rfl]
  rw [beginRun_eq, enterService_frame]
  refine (point_startStage run p).trans ?_
  rw [members_withRun, point_withRun]
  split
  next member => simp only [Run.targetProgress, Nat.zero_add, direction]
  next => rfl

end beginRun

/-- Settles O36: the request by its checks, and what it writes record by record. -/
theorem startResult : Obligations.StartResult := by
  refine ⟨fun s g travel step gap hw travels short low high few => ?inRange,
    fun s o hw out => exec_of_act hw rfl (startRun_out fun ok => out (StartOps.ok_iff.1 ok)),
    fun x ceiling t travel step h => ⟨targetOk_iff, runOk_iff⟩⟩
  case inRange =>
    have ok : StartOps.ok s.limits.maxStep ⟨g.val, travel, step, gap⟩ = true :=
      StartOps.ok_iff.2 ⟨g.isLt, travels, short, low, high, few⟩
    refine ⟨fun settled rest clear shut members level => ⟨?exec, ?group, point_beginRun s g _, ?plan, fun h ne => ?other,
      ?frame⟩, refusesInOrder_of_checked hw rfl (startRun_eq rfl ok)⟩
    case exec =>
      refine exec_of_checked hw rfl (startRun_eq rfl ok) (passed_for.2 ⟨List.find?_eq_none.2 fun p hp => ?_, passed_if.2
        ⟨settled, passed_if.2 ⟨fun moving => rest.elim moving.1 moving.2, passed_if.2 ⟨Bool.eq_false_iff.1 clear,
          passed_for.2 ⟨(s.assertedLine_eq_none_iff _).2 shut, passed_for.2 ⟨List.find?_eq_none.2 fun p hp => ?_,
            passed_for.2 ⟨find?_ids_eq_none_iff.2 fun c => Bool.eq_false_iff.2 fun bad => ?_,
              passed_for.2 ⟨List.find?_eq_none.2 fun b hb => ?_, passed_nil⟩⟩⟩⟩⟩⟩⟩⟩)
      · simp [(members p hp).1]
      · obtain ⟨_, live, free, none, _⟩ := members p hp
        simp [live, free, none]
      · simp only [Bool.and_eq_true, List.any_eq_true, List.contains_iff_mem, Option.any_eq_true, Bool.or_eq_true,
          beq_iff_eq] at bad
        obtain ⟨⟨p, hp, indexed⟩, x, held, judged⟩ := bad
        obtain ⟨_, _, _, _, sound⟩ := members p hp
        obtain ⟨notBreach, notBlind⟩ := sound c indexed x held
        exact judged.elim notBreach notBlind
      · simp [level b hb]
    case group =>
      rw [group_beginRun, if_pos rfl]
      rfl
    case plan => rw [beginRun_frame]
    case other => rw [group_beginRun, if_neg ne.symm]
    case frame =>
      dsimp only
      conv_lhs => rw [beginRun_frame]
      rw [show (s.beginRun g ⟨g.val, travel, step, gap⟩).plan.state = _ from
        congrArg (fun t : State => t.plan.state) (beginRun_frame s g _)]

end Sys2Proof.Machine
end

section

/-! The group engine between its stages: CONTINUE and AMEND-TRAVEL (R125 to R127), arrival and follow holding (R121 to
R123), RESUME (R131, R132) and the timers (R128, R148). -/
namespace Sys2Proof.Machine

variable {s : State}

/-! ### CONTINUE (R125) -/

theorem mayContinue_iff (g : GroupId) :
    s.mayContinue g = true ↔ (s.group g).state = .gap ∧ s.stop = false ∧ s.NoneAsserted .pitGate := by
  rw [State.mayContinue, Bool.and_eq_true, Bool.and_eq_true, beq_iff_eq, Bool.not_eq_true', Option.isNone_iff_eq_none,
    s.assertedLine_eq_none_iff, and_assoc]

theorem continueRun_eq (g : GroupId) : continueRun g.val s = checked s
    [refusesIf (s.plan.state = .compiling) .busy,
     refusesIf ((s.group g).state ≠ .gap ∨ s.stop = true
       ∨ ∃ l, (s.line l).function = .pitGate ∧ (s.line l).asserted = true) .refusedState]
    (done (s.startStage g).settle) := by
  have barred : ((s.group g).state ≠ .gap ∨ s.stop = true
      ∨ ∃ l, (s.line l).function = .pitGate ∧ (s.line l).asserted = true) ↔ ¬s.mayContinue g = true := by
    simp only [mayContinue_iff, State.NoneAsserted, not_and_or, not_forall, Bool.not_eq_false, exists_prop, ne_eq]
  rw [continueRun, fin?_val]
  dsimp only
  simp only [State.compiling_eq_true_iff]
  split
  next compiling => exact (checked_if_pos compiling).symm
  next settled =>
    rw [checked_if_neg settled]
    split
    next may => exact (checked_if_neg (rest := []) fun h => barred.1 h may).symm
    next not => exact (checked_if_pos (barred.2 not)).symm

/-! ### AMEND-TRAVEL (R126, R127) -/

theorem AmendTravelOps.ok_iff {o : AmendTravelOps} {most : Nat} : o.ok most = true ↔
    o.group < 4 ∧ o.travel ≠ 0 ∧ o.travel.natAbs ≤ 25000 ∧ ∀ n, o.step = some n → 10 ≤ n ∧ n ≤ most := by
  have steps : o.step.all (within 10 most) = true ↔ ∀ n, o.step = some n → 10 ≤ n ∧ n ≤ most := by
    cases o.step <;> simp [within]
  simp only [AmendTravelOps.ok, Bool.and_eq_true, decide_eq_true_eq, travelOk_iff, steps, and_assoc]

theorem amendTravel_out {o : AmendTravelOps} (out : ¬o.ok s.limits.maxStep = true) :
    amendTravel o s = refuse s .refusedRange := by
  unfold amendTravel
  split
  · rfl
  · exact if_pos (Bool.not_eq_true' _ ▸ Bool.eq_false_iff.2 out)

/-- A travel that turns the run round or falls short of what is done (R126). -/
theorem not_travelFits_iff (x : Group) (travel : Int) : (!x.travelFits travel) = true ↔
    ∃ r ∈ x.run, travel.sign ≠ r.travel.sign ∨ travel.natAbs < r.completed := by
  rw [Group.travelFits]
  cases x.run with
  | none => simp
  | some r => simp [direction, or_iff_not_imp_left]

theorem not_finalOk (x : Point) (ceiling : Nat) (travel : Int) : (!x.finalOk ceiling travel) =
    x.base.any fun b : Nat => !x.targetOk ceiling ((b : Int) + travel) := by
  rw [Point.finalOk]
  cases x.base <;> rfl

theorem amendTravelChecked_eq (g : GroupId) (o : AmendTravelOps) : amendTravelChecked g o s = checked s
    [refusesIf (s.plan.state = .compiling) .busy,
     refusesIf ((s.group g).state = .staging ∨ (s.group g).state = .holding) .busy,
     refusesIf ((s.group g).state ≠ .gap) .refusedState]
    (done (s.amendRun g o).settle) := by
  unfold amendTravelChecked
  simp only [State.compiling_eq_true_iff]
  split
  next compiling => exact (checked_if_pos compiling).symm
  next settled =>
    rw [checked_if_neg settled]
    cases state : (s.group g).state with
    | staging => exact (checked_if_pos (.inl rfl)).symm
    | holding => exact (checked_if_pos (.inr rfl)).symm
    | gap => rfl
    | free => rfl
    | formed => rfl
    | arrived => rfl

/-- AMEND-TRAVEL's checks on a request in range, and what it does (R126). -/
theorem amendTravel_eq {g : GroupId} {o : AmendTravelOps} (named : o.group = g.val) (ok : o.ok s.limits.maxStep = true) :
    amendTravel o s = checked s
      [refusesIf (∃ r ∈ (s.group g).run, o.travel.sign ≠ r.travel.sign ∨ o.travel.natAbs < r.completed) .refusedRange,
       refusesFor ((s.members g).find? fun p =>
           (s.point p).base.any fun b : Nat => !(s.point p).targetOk s.limits.liftCeiling ((b : Int) + o.travel))
         .refusedRange 0x01,
       refusesIf (s.plan.state = .compiling) .busy,
       refusesIf ((s.group g).state = .staging ∨ (s.group g).state = .holding) .busy,
       refusesIf ((s.group g).state ≠ .gap) .refusedState]
      (done (s.amendRun g o).settle) := by
  rw [amendTravel, named, fin?_val]
  dsimp only
  rw [ok, if_neg (by nofun)]
  simp only [not_travelFits_iff, not_finalOk]
  split
  next turned => exact (checked_if_pos turned).symm
  next fits =>
    rw [checked_if_neg fits]
    split
    next p found => exact (checked_for_some found).symm
    next inReach => exact (amendTravelChecked_eq g o).trans (checked_for_none inReach).symm

/-- Settles O39: both requests by their checks, and the amended run. -/
theorem gapRequests : Obligations.GapRequests := by
  refine ⟨fun s g hw settled gap clear shut => ?continue_,
    fun s n hw out => exec_of_act (r := refuse s .refusedRange) hw rfl (by rw [continueRun, fin?_of_not_lt (by omega)]),
    fun s g hw => refusesInOrder_of_checked hw rfl (continueRun_eq g),
    fun s g r travel step hw settled gap run travels short steps sign done inReach => ?amend,
    fun s o hw out => exec_of_act hw rfl (amendTravel_out fun ok => out (AmendTravelOps.ok_iff.1 ok)),
    fun s g travel step hw travels short steps => refusesInOrder_of_checked hw rfl (amendTravel_eq (g := g) rfl
      (AmendTravelOps.ok_iff.2 ⟨g.isLt, travels, short, steps⟩))⟩
  case continue_ =>
    refine exec_of_checked hw rfl (continueRun_eq g) (passed_if.2 ⟨settled, passed_if.2 ⟨?_, passed_nil⟩⟩)
    rintro (moved | stopped | ⟨l, gate, asserted⟩)
    · exact moved gap
    · exact absurd clear (Bool.eq_false_iff.not.2 (not_not.2 stopped))
    · rw [shut l gate] at asserted
      cases asserted
  case amend =>
    have ok : AmendTravelOps.ok s.limits.maxStep ⟨g.val, travel, step⟩ = true :=
      AmendTravelOps.ok_iff.2 ⟨g.isLt, travels, short, steps⟩
    refine (exec_of_checked hw rfl (amendTravel_eq (g := g) rfl ok) (passed_if.2 ⟨?_, passed_for.2
      ⟨List.find?_eq_none.2 fun p hp => ?_, passed_if.2 ⟨settled, passed_if.2 ⟨by rw [gap]; nofun, passed_if.2
        ⟨not_not.2 gap, passed_nil⟩⟩⟩⟩⟩)).trans ?_
    · rintro ⟨r', held, wrong⟩
      rw [run] at held
      cases held
      exact wrong.elim (fun ne => ne sign) (Nat.not_lt.2 done)
    · rw [Option.any_eq_true]
      rintro ⟨b, held, out⟩
      rw [inReach p hp b held] at out
      cases out
    · have amended : s.amendRun g ⟨g.val, travel, step⟩ =
          if (r.amend ⟨g.val, travel, step⟩).count = r.done then
            (s.setGroup g { s.group g with run := some (r.amend ⟨g.val, travel, step⟩), state := .arrived }).raiseFlag
              (.arrived g)
          else s.setGroup g { s.group g with run := some (r.amend ⟨g.val, travel, step⟩) } := by
        unfold State.amendRun
        rw [run]
        rfl
      rw [amended]
      dsimp only
      refine congrArg (fun t => Host.Outcome.next (s.answered t 0x43 .done [])) ?_
      exact apply_ite State.settle _ _ _

/-! ### Arrival and follow holding (R121, R122) -/

section arrival

variable {g : GroupId} {r : Run}

theorem arrives_iff (run : (s.group g).run = some r) (p : PointId) : s.arrives g p = true ↔
    (min (r.completed + r.step) r.travel.natAbs : Nat) - (s.limits.arrivalBand : Int) ≤ (s.point p).progress r.travel := by
  rw [State.arrives, run]
  exact decide_eq_true_iff

theorem evalFollow_of_run_none (none : (s.group g).run = none) : s.evalFollow g = s := by
  rw [State.evalFollow, none]

theorem evalFollow_frame (s : State) (g : GroupId) : s.evalFollow g = { s with points := (s.evalFollow g).points } := by
  unfold State.evalFollow
  split <;> rfl

/-- A point after an evaluation of follow holding (R122). -/
theorem point_evalFollow (run : (s.group g).run = some r) (p : PointId) : (s.evalFollow g).point p =
    if p ∈ s.members g then
      { s.point p with
        followHeld := !(s.point p).arrived && (s.leastProgress g r.travel).any fun m =>
          followAfter s.limits.followWindow (s.point p).followHeld ((s.point p).progress r.travel - m) }
    else s.point p := by
  unfold State.evalFollow
  rw [run]
  refine (Table.at_mapAll s.points _ p).trans ?_
  simp only [List.contains_iff_mem]
  rfl

theorem point_evalFollow_of_not_member {p : PointId} (out : p ∉ s.members g) :
    (s.evalFollow g).point p = s.point p := by
  cases run : (s.group g).run with
  | none => rw [evalFollow_of_run_none run]
  | some r => rw [point_evalFollow run, if_neg out]

/-- An evaluation of follow holding leaves every arrived flag (R122). -/
theorem arrived_evalFollow (s : State) (g : GroupId) (p : PointId) :
    ((s.evalFollow g).point p).arrived = (s.point p).arrived := by
  cases run : (s.group g).run with
  | none => rw [evalFollow_of_run_none run]
  | some r =>
    rw [point_evalFollow run]
    split <;> rfl

theorem members_evalFollow (s : State) (g h : GroupId) : (s.evalFollow g).members h = s.members h := by
  rw [evalFollow_frame]
  rfl

theorem mem_notArrived {p : PointId} : p ∈ s.notArrived g ↔ p ∈ s.members g ∧ (s.point p).arrived = false := by
  rw [State.notArrived, List.mem_filter, Bool.not_eq_true']

/-- The slowest member's progress (R122). -/
theorem leastProgress_eq {travel least : Int}
    (lower : ∀ q ∈ s.members g, (s.point q).arrived = false → least ≤ (s.point q).progress travel)
    (attained : ∃ q ∈ s.members g, (s.point q).arrived = false ∧ (s.point q).progress travel = least) :
    s.leastProgress g travel = some least := by
  rw [State.leastProgress, List.min?_eq_some_iff]
  obtain ⟨q, member, moving, eq⟩ := attained
  refine ⟨List.mem_map.2 ⟨q, mem_notArrived.2 ⟨member, moving⟩, eq⟩, fun n hn => ?_⟩
  obtain ⟨p, hp, rfl⟩ := List.mem_map.1 hn
  obtain ⟨member, moving⟩ := mem_notArrived.1 hp
  exact lower p member moving

theorem followAfter_eq (window : Nat) (held : Bool) (excess : Int) : followAfter window held excess =
    if (window : Int) < excess then true else if 2 * excess ≤ (window : Int) then false else held := by
  unfold followAfter
  cases held with
  | true =>
    rw [if_pos rfl]
    split_ifs with above below
    · rw [decide_eq_false (by omega)]
      rfl
    · rw [decide_eq_true below]
      rfl
    · rw [decide_eq_false below]
      rfl
  | false =>
    rw [if_neg Bool.false_ne_true, ite_self]
    by_cases above : (window : Int) < excess
    · rw [if_pos above, decide_eq_true above]
    · rw [if_neg above, decide_eq_false above]

theorem allArrived_iff : s.allArrived g = true ↔ ∀ p ∈ s.members g, (s.point p).arrived = true := List.all_eq_true

end arrival

/-- Settles O38: the two judgements of an arrival, the evaluation of follow holding point by point, and what the group
engine does by the state of the point's group. -/
theorem arrivalAndFollowHolding : Obligations.ArrivalAndFollowHolding := by
  refine ⟨fun s g p r run => ⟨fun arrives => ⟨?arrived, ?recorded⟩, fun short => ⟨?notArrived, ?notRecorded⟩⟩,
    fun s g => ⟨evalFollow_frame s g, evalFollow_of_run_none, fun p => point_evalFollow_of_not_member⟩,
    fun s g r run p member => ⟨fun arrived => ?free, fun least moving lower attained => ?follow⟩,
    fun x travel h b height base => ?progress,
    fun s p => ⟨fun none => ?ungrouped, fun g named => ⟨fun staging => ⟨fun all => ?complete, fun some => ?evaluated⟩,
      fun holding from_ => ?held, fun holding from_ => ?heldElse, fun notStaging notHolding => ?rest⟩⟩⟩
  case arrived => exact if_pos ((arrives_iff run p).2 arrives)
  case recorded => exact if_pos ((arrives_iff run p).2 arrives)
  case notArrived => exact if_neg fun h => short ((arrives_iff run p).1 h)
  case notRecorded => exact if_neg fun h => short ((arrives_iff run p).1 h)
  case free => rw [point_evalFollow run, if_pos member, arrived, Bool.not_true, Bool.false_and]
  case follow =>
    dsimp only
    rw [point_evalFollow run, if_pos member, leastProgress_eq lower attained,
      show (!(s.point p).arrived) = true by rw [moving]; rfl]
    simp only [Bool.true_and, Option.any_some, followAfter_eq]
    split_ifs <;> rfl
  case progress =>
    rw [Point.progress, height, base]
    rfl
  all_goals unfold State.groupTakes
  case ungrouped => rw [none]
  all_goals
    rw [named]
    dsimp only
  case complete =>
    rw [staging]
    exact if_pos (allArrived_iff.2 all)
  case evaluated =>
    rw [staging]
    exact if_neg fun h => some (allArrived_iff.1 h)
  case held => rw [holding, from_]
  case heldElse =>
    rw [holding]
    cases heldFrom : (s.group g).heldFrom with
    | none => rfl
    | some from' =>
      cases from' with
      | staging => exact absurd heldFrom from_
      | gap => rfl
  case rest =>
    cases state : (s.group g).state with
    | staging => exact absurd state notStaging
    | holding => exact absurd state notHolding
    | _ => rfl

end Sys2Proof.Machine
end

section

/-! RESUME (R131, R132), the timers (R128, R148), JOG and JOG-CANCEL (R145 to R151). -/
namespace Sys2Proof.Machine

variable {s : State}

/-! ### The causes that stand (R131) -/

/-- The causes in the order of their bits. -/
theorem allCauses_bit (c : HoldCause) : allCauses[c.bit]? = some c := by cases c <;> rfl

theorem HoldCause.bit_inj {c d : HoldCause} (h : c.bit = d.bit) : c = d := by
  have same := allCauses_bit c
  rw [h, allCauses_bit] at same
  exact (Option.some.inj same).symm

theorem mem_allCauses (c : HoldCause) : c ∈ allCauses := List.mem_of_getElem? (allCauses_bit c)

/-- A mask built cause by cause has the bits of the causes that pass (R131). -/
theorem getLsbD_foldl_causes (test : HoldCause → Bool) (c : HoldCause) : ∀ (l : List HoldCause) (m : BitVec 13),
    (l.foldl (fun m d => if test d then insertBit m d.bit else m) m).getLsbD c.bit =
      (m.getLsbD c.bit || decide (c ∈ l) && test c)
  | [], m => by simp
  | d :: l, m => by
    rw [List.foldl_cons, getLsbD_foldl_causes test c l]
    by_cases same : d = c
    · subst same
      cases passes : test d with
      | false => simp
      | true => simp [getLsbD_insertBit_self m d.bit_lt]
    · have other : (if test d then insertBit m d.bit else m).getLsbD c.bit = m.getLsbD c.bit := by
        split
        · exact getLsbD_insertBit_of_ne m fun h => same (HoldCause.bit_inj h)
        · rfl
      have moved : decide (c ∈ d :: l) = decide (c ∈ l) := by
        rw [decide_eq_decide, List.mem_cons, or_iff_right (Ne.symm same)]
      rw [other, moved]

theorem getLsbD_standingCauses (g : GroupId) (c : HoldCause) :
    (s.standingCauses g).getLsbD c.bit = ((s.group g).hasCause c && !s.removable g c) := by
  refine (getLsbD_foldl_causes (fun c => (s.group g).hasCause c && !s.removable g c) c allCauses 0).trans ?_
  simp [mem_allCauses]

/-- A mask built of causes none of which passes is as it was. -/
theorem foldl_causes_of_none {test : HoldCause → Bool} (none : ∀ c, test c = false) : ∀ (l : List HoldCause) (m : BitVec 13),
    l.foldl (fun m d => if test d then insertBit m d.bit else m) m = m
  | [], _ => rfl
  | d :: l, m => by
    rw [List.foldl_cons, none d]
    exact foldl_causes_of_none none l m

theorem standingCauses_eq_zero_iff (g : GroupId) :
    s.standingCauses g = 0 ↔ ∀ c, (s.group g).hasCause c = true → s.removable g c = true := by
  constructor
  · intro zero c has
    have bit := getLsbD_standingCauses (s := s) g c
    rw [zero, has] at bit
    simpa using bit
  · intro removable
    refine foldl_causes_of_none (fun c => ?_) allCauses 0
    cases has : (s.group g).hasCause c with
    | false => rfl
    | true => simp [removable c has]

/-! ### When a cause is removable (R131) -/

theorem memberConstraint_eq_none_iff (g : GroupId) (st : ConstraintState) :
    s.memberConstraint g (· == st) = none ↔
      ∀ c x, (∃ p ∈ s.members g, c ∈ (s.point p).index) → s.constraint c = some x → x.state ≠ st := by
  refine find?_ids_eq_none_iff.trans (forall_congr' fun c => ?_)
  cases held : s.constraint c with
  | none => simp
  | some x =>
    rw [Bool.eq_false_iff]
    simp only [Bool.and_eq_true, List.any_eq_true, List.contains_iff_mem, Option.any_some, beq_iff_eq, ne_eq, not_and,
      forall_exists_index, and_imp, Option.some.injEq]
    exact ⟨fun h y p member indexed same => same ▸ h p member indexed,
      fun h p member indexed => h x p member indexed rfl⟩

theorem holdButtonAsserted_eq_false_iff (g : GroupId) : s.holdButtonAsserted g = false ↔
    ∀ l, (s.line l).function = .holdButton → ((s.line l).parameter = .group g ∨ (s.line l).parameter = .all) →
      (s.line l).asserted = false := by
  rw [State.holdButtonAsserted, List.any_eq_false]
  refine ⟨fun h l button named => ?_, fun h l _ => ?_⟩
  · have := h l (mem_ids l)
    simp only [Bool.and_eq_true, beq_iff_eq, Bool.or_eq_true, not_and] at this
    exact Bool.eq_false_iff.2 fun asserted => this ⟨button, asserted⟩ named
  · simp only [Bool.and_eq_true, beq_iff_eq, Bool.or_eq_true, not_and]
    rintro ⟨button, asserted⟩ named
    rw [h l button named] at asserted
    cases asserted

theorem noCondition_iff (g : GroupId) (k : Condition) :
    s.noCondition g k = true ↔ ∀ p ∈ s.members g, (s.point p).hasCondition k = false := by
  rw [State.noCondition, List.all_eq_true]
  simp only [Bool.not_eq_true']

theorem removable_cause (g : GroupId) (k : Condition) : s.removable g k.cause = s.noCondition g k := by
  cases k <;> rfl

/-! ### RESUME (R131, R132) -/

theorem resumeGroup_eq (g : GroupId) : resumeGroup g.val s = checked s
    [refusesIf (s.plan.state = .compiling) .busy, refusesIf ((s.group g).state ≠ .holding) .refusedState]
    (if s.standingCauses g ≠ 0 then
      (⟨.refusedState, [0x07, byte ((s.standingCauses g).toNat / 256), byte (s.standingCauses g).toNat]⟩, s)
     else done (s.resumeFrom g).settle) := by
  rw [resumeGroup, fin?_val]
  dsimp only
  simp only [State.compiling_eq_true_iff]
  split
  next compiling => exact (checked_if_pos compiling).symm
  next settled =>
    rw [checked_if_neg settled]
    split
    next other => exact (checked_if_pos other).symm
    next holding => exact (checked_if_neg (rest := []) holding).symm

/-- The record of a group whose held stage goes on (R132). -/
def Group.goesOn (x : Group) (timer : Nat) : Group :=
  { x with state := .staging, heldFrom := none, causes := 0, timer := some timer }

/-- The records with a held stage going on, its members' follow holding evaluated (R132). -/
def State.goneOn (s : State) (g : GroupId) : State :=
  (s.setGroup g ((s.group g).goesOn (s.limits.stageTimeout * 1000000))).evalFollow g

theorem resumeFrom_staging {g : GroupId} (from_ : (s.group g).heldFrom = some .staging) :
    s.resumeFrom g = if (s.goneOn g).allArrived g then (s.goneOn g).completeStage g else s.goneOn g := by
  rw [State.resumeFrom, from_]
  rfl

/-- A resumed stage finds the members and their arrived flags as they stood. -/
theorem allArrived_goneOn (g : GroupId) :
    (s.goneOn g).allArrived g = true ↔ ∀ p ∈ s.members g, (s.point p).arrived = true := by
  have same : (s.goneOn g).members g = s.members g := by
    have kept := congrArg (fun y : Group => s.cornersOf y.members)
      (State.group_setGroup_self s g ((s.group g).goesOn (s.limits.stageTimeout * 1000000)))
    exact (members_evalFollow _ g g).trans kept
  have flags (p : PointId) : ((s.goneOn g).point p).arrived = (s.point p).arrived := arrived_evalFollow _ g p
  rw [allArrived_iff, same]
  simp only [flags]

/-- Settles O41: the request by its checks and the standing causes, each cause's test, and the two returns. -/
theorem resumeResult : Obligations.ResumeResult := by
  have held {s : State} {g : GroupId} (hw : s.Working) (settled : s.plan.state ≠ .compiling)
      (holding : (s.group g).state = .holding) := exec_of_checked hw (c := .resume (.takes g.val)) rfl (resumeGroup_eq g)
    (passed_if.2 ⟨settled, passed_if.2 ⟨not_not.2 holding, passed_nil⟩⟩)
  refine ⟨fun s g hw settled holding removable => ?resumed, fun s g hw settled holding stands => ?stands,
    fun s g => ⟨rfl, rfl, ?line, ?stop, ?gate, ?breach, ?blind, fun k => ?condition, ?skew, ?lost⟩,
    fun s n hw out => exec_of_act (r := refuse s .refusedRange) hw rfl (by rw [resumeGroup, fin?_of_not_lt (by omega)]),
    fun s g hw => refusesInOrder_of_checked hw rfl (resumeGroup_eq g), fun s g from_ => ?fromGap,
    fun s g from_ => ⟨fun some => ?goesOn, fun all => ?completes⟩⟩
  case resumed =>
    refine (held hw settled holding).trans ?_
    rw [if_neg (not_not.2 ((standingCauses_eq_zero_iff g).2 removable))]
    rfl
  case stands =>
    obtain ⟨c, has, fixed⟩ := stands
    have some : s.standingCauses g ≠ 0 := fun zero => by
      rw [(standingCauses_eq_zero_iff g).1 zero c has] at fixed
      cases fixed
    refine ⟨s.standingCauses g, (held hw settled holding).trans ?_, getLsbD_standingCauses g⟩
    rw [if_pos some]
  case line => exact (Bool.not_eq_true' _).to_iff.trans (holdButtonAsserted_eq_false_iff g)
  case stop => exact (Bool.not_eq_true' _).to_iff
  case gate => exact Option.isNone_iff_eq_none.trans (s.assertedLine_eq_none_iff _)
  case breach => exact Option.isNone_iff_eq_none.trans (memberConstraint_eq_none_iff g _)
  case blind => exact Option.isNone_iff_eq_none.trans (memberConstraint_eq_none_iff g _)
  case condition => rw [removable_cause, noCondition_iff]
  case skew =>
    refine List.all_eq_true.trans ?_
    simp only [Bool.not_eq_true']
  case lost =>
    refine List.all_eq_true.trans ?_
    simp only [beq_iff_eq]
  case fromGap => rw [State.resumeFrom, from_]
  case goesOn =>
    rw [resumeFrom_staging from_]
    refine if_neg fun all => ?_
    obtain ⟨p, member, moving⟩ := some
    rw [(allArrived_goneOn g).1 all p member] at moving
    cases moving
  case completes =>
    rw [resumeFrom_staging from_]
    exact if_pos ((allArrived_goneOn g).2 all)

/-! ### The timers (R128, R148) -/

theorem endJog_of_active {j : ActiveJog} (active : s.jog.active = some j) (o : JogOutcome) :
    s.endJog o = ({ s with jog := ⟨none, o, some j.point⟩ }.setPoint j.point
      { s.point j.point with target := none }).raiseFlag .jog := by
  rw [State.endJog, active]
  rfl

/-- Settles O42: the expiry is an event of the working part; the group is in STAGING, the slot ACTIVE. -/
theorem timersExpire : Obligations.TimersExpire := by
  refine ⟨fun s g hw staging running => ?stage, fun s j hw active => ?jog⟩
  case stage =>
    refine congrArg Host.Outcome.next ((event_working s hw _).trans ?_)
    rw [State.expireStage]
    dsimp only
    rw [if_pos ⟨staging, running⟩]
    refine congrArg State.settle ?_
    unfold State.claim
    dsimp only
    rw [State.group_setGroup_self]
    dsimp only
    rw [staging]
    dsimp only
    rw [State.setGroup_setGroup]
  case jog =>
    refine congrArg Host.Outcome.next ((event_working s hw _).trans ?_)
    rw [active, ← endJog_of_active active]
    rfl

end Sys2Proof.Machine
end

section

/-! JOG and JOG-CANCEL (R145 to R151), and what ends a jog (R148, R149). -/
namespace Sys2Proof.Machine

variable {s : State}

/-! ### JOG (R145 to R147) -/

theorem JogOps.ok_iff {o : JogOps} {most : Nat} :
    o.ok most = true ↔ o.point < 48 ∧ o.distance ≠ 0 ∧ o.distance.natAbs ≤ most := by
  rw [JogOps.ok, Bool.and_eq_true, Bool.and_eq_true, decide_eq_true_eq, bne_iff_ne, decide_eq_true_eq, and_assoc]

theorem jogPoint_out {o : JogOps} (out : ¬o.ok s.limits.maxStep = true) : jogPoint o s = refuse s .refusedRange := by
  unfold jogPoint
  split
  · rfl
  · exact if_pos (Bool.not_eq_true' _ ▸ Bool.eq_false_iff.2 out)

/-- The third range check refuses a point whose heights are known and would be left (R145). -/
theorem not_jogOk_iff (x : Point) (ceiling : Nat) (d : Int) : (!x.jogOk ceiling d) = true ↔
    ∃ h ∈ x.height, x.rest.isSome ∧ x.ratedStroke.isSome ∧ x.targetOk ceiling ((h : Int) + d) = false := by
  cases height : x.height <;> simp [Point.jogOk, Point.jogTarget, height, and_assoc]

/-- The conditions of a point that refuse a jog, in their order (R146). -/
theorem checked_conditions {x : Point} {rest : List (Option (Status × List Byte))} {r : Answer × State} :
    ∀ l : List Condition,
      checked s (l.map (fun c => refusesIf (x.hasCondition c = true) .refusedState [0x09, byte (2 ^ c.bit)]) ++ rest) r =
        (l.find? x.hasCondition).elim (checked s rest r) fun c => refuseFor s .refusedState (.condition c)
  | [] => rfl
  | c :: l => by
    rw [List.map_cons, List.cons_append, List.find?_cons]
    cases has : x.hasCondition c with
    | true => exact checked_if_pos rfl
    | false => exact (checked_if_neg Bool.false_ne_true).trans (checked_conditions l)

/-- JOG's checks on a request in range, and what it does (R145 to R147). -/
theorem jogPoint_eq {p : PointId} {d : Int} (ok : JogOps.ok s.limits.maxStep ⟨p.val, d⟩ = true) :
    jogPoint ⟨p.val, d⟩ s = checked s
      [refusesIf (∃ h ∈ (s.point p).height, (s.point p).rest.isSome ∧ (s.point p).ratedStroke.isSome
           ∧ (s.point p).targetOk s.limits.liftCeiling ((h : Int) + d) = false) .refusedRange [0x01, byte p.val],
       refusesIf (s.plan.state = .compiling) .busy,
       refusesFor (s.jog.active.map (·.point)) .busy 0x01,
       refusesIf ((s.point p).life ≠ .planned) .refusedState,
       refusesIf ((s.point p).health ≠ .live) .refusedState,
       refusesFor (s.point p).group .refusedState 0x04,
       refusesIf ((s.point p).inhibit = true) .refusedState,
       refusesIf ((s.point p).hasCondition .overload = true) .refusedState [0x09, 0x01],
       refusesIf ((s.point p).hasCondition .nodeStop = true) .refusedState [0x09, 0x02],
       refusesIf ((s.point p).hasCondition .nodeFault = true) .refusedState [0x09, 0x04],
       refusesIf ((s.point p).hasCondition .stroke = true) .refusedState [0x09, 0x08],
       refusesIf (s.stop = true) .refusedState,
       refusesFor s.openGate .refusedState 0x05,
       refusesFor (lowest fun c => (s.point p).index.contains c && (s.constraint c).any fun y =>
           y.state == .warn || y.state == .breach || y.state == .blind) .refusedState 0x03]
      (done (s.beginJog p d).settle) := by
  rw [jogPoint, fin?_val]
  dsimp only
  rw [ok, if_neg (by nofun)]
  simp only [not_jogOk_iff]
  split
  next out => exact (checked_if_pos out).symm
  next inReach =>
    rw [checked_if_neg inReach]
    split
    next compiling => exact (checked_if_pos compiling).symm
    next settled =>
      rw [checked_if_neg settled]
      split
      next j active => exact (checked_for_some (by rw [active]; rfl)).symm
      next idle =>
        rw [checked_for_none (by rw [idle]; rfl), jogChecked]
        split
        next unplanned => exact (checked_if_pos unplanned).symm
        next planned =>
          rw [checked_if_neg planned]
          split
          next dead => exact (checked_if_pos dead).symm
          next live =>
            rw [checked_if_neg live]
            split
            next g grouped => exact (checked_for_some grouped).symm
            next alone =>
              rw [checked_for_none alone]
              split
              next inhibited => exact (checked_if_pos inhibited).symm
              next free =>
                rw [checked_if_neg free]
                refine Eq.trans ?_ (checked_conditions allConditions).symm
                split
                next c found => rw [found, Option.elim_some]
                next sound =>
                  rw [sound, Option.elim_none]
                  split
                  next stopped => exact (checked_if_pos stopped).symm
                  next clear =>
                    rw [checked_if_neg clear]
                    split
                    next l found => exact (checked_for_some found).symm
                    next shut =>
                      rw [checked_for_none (found := s.openGate) shut]
                      split
                      next c found => exact (checked_for_some found).symm
                      next level => exact (checked_for_none (rest := []) (found := s.jogConstraint p) level).symm

theorem beginJog_eq (s : State) (p : PointId) (d : Int) : s.beginJog p d =
    { s with
      jog := { s.jog with
        active := some ⟨p, d, (s.point p).height.getD 0, s.limits.stageTimeout * Config.usPerSecond⟩ }
      plan := { s.plan with state := if s.plan.state = PlanState.compiled then PlanState.inService else s.plan.state } }.setPoint p
      { s.point p with target := some (((s.point p).height.getD 0 : Int) + d).toNat } := by
  rw [State.beginJog]
  exact enterService_frame _

/-- Settles O43: the request by its checks, and what it writes. -/
theorem jogResult : Obligations.JogResult := by
  refine ⟨fun s p d hw moves short => ?inRange,
    fun s o hw out => exec_of_act hw rfl (jogPoint_out fun ok => out (JogOps.ok_iff.1 ok))⟩
  have ok : JogOps.ok s.limits.maxStep ⟨p.val, d⟩ = true := JogOps.ok_iff.2 ⟨p.isLt, moves, short⟩
  refine ⟨fun h settled idle planned live height inReach alone free sound clear shut level => ?accepted,
    refusesInOrder_of_checked hw rfl (jogPoint_eq ok)⟩
  have none (c : Condition) : ¬(s.point p).hasCondition c = true := by
    rw [Point.hasCondition, sound]
    simp
  refine (exec_of_checked hw rfl (jogPoint_eq ok) (passed_if.2 ⟨?reach, passed_if.2 ⟨settled, passed_for.2
    ⟨by rw [idle]; rfl, passed_if.2 ⟨not_not.2 planned, passed_if.2 ⟨not_not.2 live, passed_for.2 ⟨alone, passed_if.2
      ⟨Bool.eq_false_iff.1 free, passed_if.2 ⟨none _, passed_if.2 ⟨none _, passed_if.2 ⟨none _, passed_if.2 ⟨none _,
        passed_if.2 ⟨Bool.eq_false_iff.1 clear, passed_for.2 ⟨(s.assertedLine_eq_none_iff _).2 shut, passed_for.2
          ⟨find?_ids_eq_none_iff.2 fun c => Bool.eq_false_iff.2 fun judged => ?_, passed_nil⟩⟩⟩⟩⟩⟩⟩⟩⟩⟩⟩⟩⟩⟩)).trans ?_
  case reach =>
    rintro ⟨h', held, _, _, out⟩
    rw [height] at held
    cases held
    rw [inReach] at out
    cases out
  · simp only [Bool.and_eq_true, List.contains_iff_mem, Option.any_eq_true, Bool.or_eq_true, beq_iff_eq, or_assoc] at judged
    obtain ⟨indexed, y, held, state⟩ := judged
    obtain ⟨notWarn, notBreach, notBlind⟩ := level c indexed y held
    exact state.elim notWarn fun h => h.elim notBreach notBlind
  · have start : (s.point p).height.getD 0 = h := by rw [height, Option.getD_some]
    rw [beginJog_eq, start]
    rfl

/-! ### JOG-CANCEL and the end of a jog (R148 to R151) -/

theorem jogCancel_eq (s : State) : jogCancel () s = checked s
    [refusesIf (s.plan.state = .compiling) .busy, refusesIf (s.jog.active = none) .refusedState]
    (s.jog.active.elim (refuse s .refusedState) fun j =>
      doneWith (s.endJog .cancelled).settle [0x01, byte j.point.val]) := by
  unfold jogCancel
  split
  next compiling => exact (checked_if_pos compiling).symm
  next settled =>
    rw [checked_if_neg settled]
    cases s.jog.active with
    | none => exact (checked_if_pos rfl).symm
    | some j => exact (checked_if_neg (rest := []) nofun).symm

/-- The permit of a point at rest is HOLD or NONE. -/
theorem restPermit_rests (raised : Bool) : restPermit raised = .hold ∨ restPermit raised = .none := by
  cases raised
  · exact .inr rfl
  · exact .inl rfl

/-- Where no jog is ACTIVE, a point in no group holds or rests (R143). -/
theorem permitOf_rests {p : PointId} {x : Point} (idle : s.jog.active = none) (alone : x.group = none) :
    s.permitOf p x = .hold ∨ s.permitOf p x = .none := by
  by_cases live : x.life = .bound ∨ x.life = .planned
  · by_cases still : s.stop = true ∨ x.inhibit = true ∨ x.health = .lost
    · rw [State.permitOf_of_still live still]
      exact restPermit_rests _
    · rw [State.permitOf_of_not_jogged live still (by rw [idle]; nofun), State.groupRow_of_not_moving]
      · exact restPermit_rests _
      · rintro ⟨g, _, group, _⟩
        rw [alone] at group
        cases group
  · exact .inr (State.permitOf_of_not_live live)

/-- Settles O44: the request by its checks, the end of a jog from the slot, and the report that ends it. -/
theorem jogCancelEndsTheJog : Obligations.JogCancelEndsTheJog := by
  refine ⟨fun s hw compiling => ?busy, fun s hw settled idle => ?idle,
    fun s j hw settled active => ⟨?cancelled, fun alone => ?rests⟩, fun s o idle => ?none,
    fun s j o active => ⟨endJog_of_active active o, fun p => ?notice⟩,
    fun s p => ⟨fun idle => ?noJog, fun j h active height => ⟨fun at_ arrived => ?arrives, fun not => ?stays⟩⟩⟩
  case busy =>
    refine refusesInOrder_of_checked hw rfl (jogCancel_eq s) (.busy, []) ?_
    rw [refusesIf, if_pos compiling]
    rfl
  case idle =>
    refine refusesInOrder_of_checked hw rfl (jogCancel_eq s) (.refusedState, []) ?_
    rw [refusesIf, if_neg settled, refusesIf, if_pos idle]
    rfl
  case cancelled =>
    refine (exec_of_checked hw rfl (jogCancel_eq s) (passed_if.2 ⟨settled, passed_if.2 ⟨by rw [active]; nofun,
      passed_nil⟩⟩)).trans ?_
    rw [active]
    rfl
  case rests =>
    have permit : ((s.endJog .cancelled).settle.point j.point).permit =
        (s.endJog .cancelled).permitOf j.point ((s.endJog .cancelled).point j.point) :=
      congrArg Point.permit (Table.at_mapAll _ _ _)
    rw [permit]
    refine permitOf_rests (s.endJog_active _) ?_
    rw [s.point_endJog active, if_pos rfl]
    exact alone
  case none => rw [State.endJog, idle]
  case notice => rw [State.jogNotice, active]
  all_goals unfold State.jogTakes
  case noJog => rw [idle]
  all_goals
    rw [active]
    dsimp only
  case arrives =>
    refine if_pos ⟨at_, ?_⟩
    rw [ActiveJog.progress, ← at_, height]
    exact arrived
  case stays =>
    refine if_neg ?_
    rintro ⟨at_, arrived⟩
    refine not.elim (fun ne => ne at_) fun short => short ?_
    rw [ActiveJog.progress, ← at_, height] at arrived
    exact arrived

end Sys2Proof.Machine
end

section

/-! The line block (chapter 8): the function menu, SET-LINE and SET-OUTPUT, debounce, assertions and releases. -/
namespace Sys2Proof.Machine

variable {s : State}

/-! ### The function menu (R159) -/

theorem function?_code (f : LineFunction) : function? f.code = some f := by cases f <;> rfl

theorem code_of_function? {n : Nat} {f : LineFunction} (h : function? n = some f) : f.code = n := by
  unfold function? at h
  split at h <;> cases h <;> rfl

theorem isInput_iff (f : LineFunction) :
    f.isInput = true ↔ f ∉ [LineFunction.generalOut, .beacon, .faultLamp, .groupMoving] := by
  cases f <;> decide

theorem allowedOn_iff (f : LineFunction) (l : LineId) : f.allowedOn l = true ↔
    if f = .shedStop then 8 ≤ l.val
    else if f ∈ [LineFunction.generalOut, .beacon, .faultLamp, .groupMoving] then l.val < 8 else True := by
  cases f <;> simp [LineFunction.allowedOn]

theorem takesParameter_iff (f : LineFunction) (par : LineParameter) : f.takesParameter par = true ↔
    if f = .holdButton then par ≠ .absent
    else if f = .continueButton ∨ f = .groupMoving then ∃ g, par = .group g
    else par = .absent := by
  cases f <;> cases par <;> simp [LineFunction.takesParameter]

theorem protective_iff (f : LineFunction) : f.protective = true ↔ f = .shedStop ∨ f = .pitGate ∨ f = .holdButton := by
  cases f <;> decide

/-! ### SET-LINE (R168, R169) -/

theorem lineLocked_iff (l : LineId) (f : LineFunction) (pol : Polarity) : s.lineLocked l f pol = true ↔
    s.plan.state = .inService ∧ (s.line l).function = .shedStop ∧ (f ≠ .shedStop ∨ pol ≠ (s.line l).polarity) := by
  simp only [State.lineLocked, Bool.and_eq_true, beq_iff_eq, Bool.or_eq_true, bne_iff_ne, and_assoc]

theorem setLine_val {l : LineId} {f : LineFunction} {par : LineParameter} {pol : Polarity}
    (allowed : f.allowedOn l = true) (takes : f.takesParameter par = true) :
    Machine.setLine ⟨l.val, f.code, par, pol⟩ s = setLineChecked l f par pol s := by
  rw [Machine.setLine, fin?_val, function?_code]
  dsimp only
  rw [allowed, takes]
  rfl

theorem setLine_out {o : SetLineOps}
    (out : ¬(o.line < 12 ∧ ∃ (l : LineId) (f : LineFunction), l.val = o.line ∧ f.code = o.selector
      ∧ f.allowedOn l = true ∧ f.takesParameter o.parameter = true)) :
    Machine.setLine o s = refuse s .refusedRange := by
  unfold Machine.setLine
  split
  next l f line function =>
    refine if_pos ?_
    rw [Bool.not_eq_true', ← Bool.not_eq_true, Bool.and_eq_true]
    rintro ⟨allowed, takes⟩
    have named := fin?_eq_some line
    exact out ⟨named ▸ l.isLt, l, f, named, code_of_function? function, allowed, takes⟩
  next => rfl

theorem setLineChecked_of_locked {l : LineId} {f : LineFunction} {par : LineParameter} {pol : Polarity}
    (locked : s.lineLocked l f pol = true) : setLineChecked l f par pol s = refuseFor s .refusedLocked (.line l) :=
  if_pos locked

theorem setLineChecked_of_unlocked {l : LineId} {f : LineFunction} {par : LineParameter} {pol : Polarity}
    (unlocked : ¬s.lineLocked l f pol = true) : setLineChecked l f par pol s =
      if (s.line l).function = f ∧ (s.line l).parameter = par ∧ (s.line l).polarity = pol then done s
      else done (s.rewriteLine l f par pol).settle :=
  if_neg unlocked

section rewrite

variable (x : Line) (raw : Level) {f : LineFunction} (par : LineParameter) (pol : Polarity)

theorem rewrite_of_output (out : f.isInput = false) : x.rewrite raw f par pol =
    { x with
      function := f, parameter := par, polarity := pol, debounced := none, timer := none
      output := if f = .generalOut then some false else none } := by
  unfold Line.rewrite
  dsimp only
  rw [out]
  exact if_pos rfl

theorem rewrite_of_turned (input : f.isInput = true) (out : x.function.isInput = false) : x.rewrite raw f par pol =
    { x with
      function := f, parameter := par, polarity := pol, debounced := some raw, timer := none, output := none } := by
  unfold Line.rewrite
  dsimp only
  rw [input, out]
  rfl

theorem rewrite_of_shed (shed : f = .shedStop) (input : x.function.isInput = true) (active : raw = Polarity.active pol) :
    x.rewrite raw f par pol =
      { x with function := f, parameter := par, polarity := pol, debounced := some raw, timer := none } := by
  unfold Line.rewrite
  dsimp only
  rw [if_neg (by rw [shed]; nofun), if_neg (by rw [input]; nofun), if_pos ⟨shed, active⟩]

theorem rewrite_of_kept (input : f.isInput = true) (was : x.function.isInput = true)
    (quiet : ¬(f = .shedStop ∧ raw = Polarity.active pol)) :
    x.rewrite raw f par pol = { x with function := f, parameter := par, polarity := pol } := by
  unfold Line.rewrite
  dsimp only
  rw [if_neg (by rw [input]; nofun), if_neg (by rw [was]; nofun), if_neg quiet]

/-- A rewritten line has the three values given, and its driven level as it was (R169). -/
theorem rewrite_values (f : LineFunction) : (x.rewrite raw f par pol).function = f
    ∧ (x.rewrite raw f par pol).parameter = par ∧ (x.rewrite raw f par pol).polarity = pol
    ∧ (x.rewrite raw f par pol).drive = x.drive := by
  cases input : f.isInput with
  | false =>
    rw [rewrite_of_output x raw par pol input]
    exact ⟨rfl, rfl, rfl, rfl⟩
  | true =>
    cases was : x.function.isInput with
    | false =>
      rw [rewrite_of_turned x raw par pol input was]
      exact ⟨rfl, rfl, rfl, rfl⟩
    | true =>
      by_cases shed : f = .shedStop ∧ raw = Polarity.active pol
      · rw [rewrite_of_shed x raw par pol shed.1 was shed.2]
        exact ⟨rfl, rfl, rfl, rfl⟩
      · rw [rewrite_of_kept x raw par pol input was shed]
        exact ⟨rfl, rfl, rfl, rfl⟩

end rewrite

theorem rewriteLine_settle (l : LineId) (f : LineFunction) (par : LineParameter) (pol : Polarity) :
    (s.rewriteLine l f par pol).settle =
      let y := (s.line l).rewrite (s.pins.at l) f par pol
      if (f = .shedStop ∨ f = .pitGate ∨ f = .holdButton) ∧ y.asserted = true then
        ((s.setLine l y).takeAssertion l).settle
      else (s.setLine l y).settle := by
  unfold State.rewriteLine
  dsimp only
  simp only [Bool.and_eq_true, protective_iff]
  exact apply_ite State.settle _ _ _

/-! ### SET-OUTPUT (R170) -/

theorem setOutput_eq (l : LineId) (level : Bool) : setOutput ⟨l.val, level⟩ s =
    if (s.line l).function ≠ .generalOut then refuseFor s .refusedState (.lineFunction (s.line l).function)
    else done (s.setLine l { s.line l with output := some level }).settle := by
  rw [setOutput, fin?_val]

/-- Settles O47: SET-LINE by its ranges, its lock and the line as it stands; the rewritten line by its function. -/
theorem lineRequests : Obligations.LineRequests := by
  refine ⟨fun s l f par pol hw allowed takes => ?line, fun s o hw out => exec_of_act hw rfl (setLine_out out), rfl,
    fun f l par => ⟨isInput_iff f, allowedOn_iff f l, takesParameter_iff f par⟩, fun s l level hw out => ?written,
    fun s l level hw other => ?refused,
    fun s o hw out => exec_of_act (r := refuse s .refusedRange) hw rfl (by rw [setOutput, fin?_of_not_lt (by omega)])⟩
  case line =>
    obtain ⟨function, parameter, polarity, drive⟩ := rewrite_values (s.line l) (s.pins.at l) par pol f
    refine ⟨fun locked => exec_of_act hw rfl ((setLine_val allowed takes).trans
        (setLineChecked_of_locked ((lineLocked_iff l f pol).2 locked))),
      fun unlocked same samePar samePol => ?same, fun unlocked changed => ?changed, function, parameter, polarity, drive,
      fun out => ?out, fun input out => ?turned, fun shed input active => ?shed, fun input was quiet => ?kept⟩
    case same =>
      refine exec_of_act (r := done s) hw rfl ((setLine_val allowed takes).trans
        ((setLineChecked_of_unlocked fun h => unlocked ((lineLocked_iff l f pol).1 h)).trans ?_))
      exact if_pos ⟨same, samePar, samePol⟩
    case changed =>
      rw [← rewriteLine_settle]
      refine exec_of_act (r := done (s.rewriteLine l f par pol).settle) hw rfl ((setLine_val allowed takes).trans
        ((setLineChecked_of_unlocked fun h => unlocked ((lineLocked_iff l f pol).1 h)).trans ?_))
      exact if_neg changed
    case out =>
      rw [rewrite_of_output _ _ _ _ out]
      exact ⟨rfl, rfl, rfl⟩
    case turned =>
      rw [rewrite_of_turned _ _ _ _ input out]
      exact ⟨rfl, rfl, rfl⟩
    case shed =>
      rw [rewrite_of_shed _ _ _ _ shed input active]
      exact ⟨rfl, rfl, rfl⟩
    case kept =>
      rw [rewrite_of_kept _ _ _ _ input was quiet]
      exact ⟨rfl, rfl, rfl⟩
  case written =>
    refine exec_of_act (r := done (s.setLine l { s.line l with output := some level }).settle) hw rfl
      ((setOutput_eq l level).trans ?_)
    exact if_neg (not_not.2 out)
  case refused => exact exec_of_act hw rfl ((setOutput_eq l level).trans (if_pos other))

/-! ### Raw levels and debounce (R160, R161) -/

theorem asserted_iff (x : Line) : x.asserted = true ↔
    x.function.isInput = true ∧ x.debounced = some (if x.polarity = .activeHigh then .high else .low) := by
  have active : Polarity.active x.polarity = if x.polarity = .activeHigh then .high else .low := by
    cases x.polarity <;> rfl
  rw [Line.asserted, ← active, Bool.and_eq_true, beq_iff_eq]

theorem exec_rawLevelChange {l : LineId} {v : Level} (hw : s.Working) (changed : s.pins.at l ≠ v) :
    exec (.rawLevelChange l v) s = .next (State.rawEvent { s with pins := s.pins.put l v } l v) := by
  refine congrArg Host.Outcome.next ((if_neg changed).trans ?_)
  exact event_working { s with pins := s.pins.put l v } hw _

section rawEvent

variable {l : LineId} {v : Level}

theorem rawEvent_of_output (out : (s.line l).function.isInput = false) : s.rawEvent l v = s := by
  unfold State.rawEvent
  dsimp only
  rw [out]
  rfl

theorem rawEvent_of_back (input : (s.line l).function.isInput = true) (same : (s.line l).debounced = some v) :
    s.rawEvent l v = s.setLine l { s.line l with timer := none } := by
  unfold State.rawEvent
  dsimp only
  rw [if_neg (by rw [input]; nofun), if_pos same]

theorem rawEvent_of_shed (shed : (s.line l).function = .shedStop) (active : v = Polarity.active (s.line l).polarity)
    (other : (s.line l).debounced ≠ some v) : s.rawEvent l v = (s.acceptLevel l v).settle := by
  unfold State.rawEvent
  dsimp only
  rw [if_neg (by rw [shed]; nofun), if_neg other, if_pos ⟨shed, active⟩]

theorem rawEvent_of_other (input : (s.line l).function.isInput = true) (other : (s.line l).debounced ≠ some v)
    (quiet : ¬((s.line l).function = .shedStop ∧ v = Polarity.active (s.line l).polarity)) :
    s.rawEvent l v = s.setLine l { s.line l with timer := some Config.debounceUs } := by
  unfold State.rawEvent
  dsimp only
  rw [if_neg (by rw [input]; nofun), if_neg other, if_neg quiet]

end rawEvent

theorem acceptLevel_eq (s : State) (l : LineId) (v : Level) : s.acceptLevel l v =
    let x := s.line l
    let y : Line := { x with debounced := some v, timer := none }
    if x.asserted = false ∧ y.asserted = true then (s.setLine l y).takeAssertion l
    else if x.asserted = true ∧ y.asserted = false then (s.setLine l y).takeRelease l
    else s.setLine l y := by
  unfold State.acceptLevel
  simp only [Bool.and_eq_true, Bool.not_eq_true']

/-- A SHED_STOP line that takes its active level is an assertion, which sets the latch (R161, R162). -/
theorem acceptLevel_of_shed {l : LineId} {v : Level} (shed : (s.line l).function = .shedStop)
    (active : v = Polarity.active (s.line l).polarity) (other : (s.line l).debounced ≠ some v) :
    s.acceptLevel l v = (s.setLine l { s.line l with debounced := some v, timer := none }).setLatch := by
  have now : Line.asserted { s.line l with debounced := some v, timer := none } = true := by
    simp [Line.asserted, shed, LineFunction.isInput, active]
  have before : (s.line l).asserted = false := by
    rw [Line.asserted, ← active, beq_eq_false_iff_ne.2 other, Bool.and_false]
  rw [acceptLevel_eq]
  dsimp only
  rw [if_pos ⟨before, now⟩, State.takeAssertion, State.line_setLine_self]
  dsimp only
  rw [shed]

/-! ### Assertions and releases (R162 to R166) -/

theorem takeAssertion_continue {l : LineId} {g : GroupId} (button : (s.line l).function = .continueButton)
    (named : (s.line l).parameter = .group g) :
    s.takeAssertion l = if s.mayContinue g then s.startStage g else s := by
  unfold State.takeAssertion
  dsimp only
  rw [button]
  dsimp only
  rw [named]

/-- Settles O48: the raw level's event by the line's function and levels, the expiry, and each function's assertion. -/
theorem rawLevelsAndDebounce : Obligations.RawLevelsAndDebounce := by
  refine ⟨fun s l v hw changed => ⟨fun out => ?out, fun input same => ?back, fun input other quiet => ?timed,
      fun shed active other => ?shed⟩, fun s l hw input running => ?expires, asserted_iff,
    fun s l => ⟨fun f => ?shedStop, fun f => ?pitGate, fun g f par => ?holdGroup, fun f par => ?holdAll,
      fun g f par => ⟨fun may => ?continues, fun not => ?bars⟩, fun f => ⟨?general, if_pos f⟩, fun f => if_neg f,
      fun c g => State.group_claimAll s c g⟩⟩
  case out => exact (exec_rawLevelChange hw changed).trans (congrArg _ (rawEvent_of_output out))
  case back => exact (exec_rawLevelChange hw changed).trans (congrArg _ (rawEvent_of_back input same))
  case timed => exact (exec_rawLevelChange hw changed).trans (congrArg _ (rawEvent_of_other input other quiet))
  case shed =>
    have event := (rawEvent_of_shed (s := { s with pins := s.pins.put l v }) shed active other).trans
      (congrArg State.settle (acceptLevel_of_shed shed active other))
    exact (exec_rawLevelChange hw changed).trans (congrArg _ event)
  case expires =>
    refine congrArg Host.Outcome.next ((event_working s hw _).trans ((if_pos ⟨input, running⟩).trans ?_))
    rw [acceptLevel_eq]
    dsimp only
    rw [apply_ite State.settle, apply_ite State.settle]
  case continues => exact (takeAssertion_continue f par).trans (if_pos ((mayContinue_iff g).2 may))
  case bars => exact (takeAssertion_continue f par).trans (if_neg fun may => not ((mayContinue_iff g).1 may))
  all_goals
    unfold State.takeAssertion
    dsimp only
    rw [f]
  case holdGroup =>
    dsimp only
    rw [par]
  case holdAll =>
    dsimp only
    rw [par]

end Sys2Proof.Machine
end

section

/-! The constraint monitor (chapter 5): what an evaluation does to flags, groups and the jog (R95 to R98), the conditions of
a point (R102 to R105) and body skew (R107). -/
namespace Sys2Proof.Machine

variable {s : State}

/-! ### What the parts of a judgement leave -/

theorem attention_isSet_congr {s t : State} {f : Flag} (h : t.attention.isSet f = true ↔ s.attention.isSet f = true) :
    t.attention.isSet f = s.attention.isSet f := Bool.eq_iff_iff.2 h

theorem jog_claimGroups (s : State) (gs : List GroupId) (k : HoldCause) : (s.claimGroups gs k).jog = s.jog := by
  obtain ⟨x, a, eq⟩ := s.claimGroups_eq gs k
  rw [eq]

/-- The end of a jog changes no flag but JOG (R149). -/
theorem isSet_endJog_of_ne (s : State) (o : JogOutcome) {f : Flag} (other : f ≠ .jog) :
    (s.endJog o).attention.isSet f = s.attention.isSet f :=
  attention_isSet_congr ((s.isSet_endJog_iff o f).trans (or_iff_left fun h => other h.1))

section notice

variable {t : Terms}

theorem noticeTerms_of_mem {j : ActiveJog} (active : s.jog.active = some j) (mem : j.point ∈ t.points) :
    s.noticeTerms t = s.endJog .limit := by
  rw [State.noticeTerms, active]
  exact if_pos (List.contains_iff_mem.2 mem)

theorem noticeTerms_of_clear (clear : ∀ j, s.jog.active = some j → j.point ∉ t.points) : s.noticeTerms t = s := by
  unfold State.noticeTerms
  split
  next j active => exact if_neg fun mem => clear j active (List.contains_iff_mem.1 mem)
  next => rfl

/-- The jog notice of a constraint leaves the groups, and every flag but JOG (R97). -/
theorem noticeTerms_leaves (s : State) (t : Terms) : (s.noticeTerms t).groups = s.groups
    ∧ ∀ f, f ≠ .jog → (s.noticeTerms t).attention.isSet f = s.attention.isSet f := by
  by_cases clear : ∀ j, s.jog.active = some j → j.point ∉ t.points
  · rw [noticeTerms_of_clear clear]
    exact ⟨rfl, fun _ _ => rfl⟩
  · push Not at clear
    obtain ⟨j, active, mem⟩ := clear
    rw [noticeTerms_of_mem active mem]
    exact ⟨s.groups_endJog _, fun f other => isSet_endJog_of_ne s _ other⟩

end notice

theorem group_congr {s t : State} (h : t.groups = s.groups) (g : GroupId) : t.group g = s.group g :=
  congrArg (fun x => Table.at x g) h

/-! ### Entering a state (R97, R98) -/

/-- What entering BREACH or BLIND does: the flag, a claim on each group that a term names, the jog notice (R97, R98). -/
def State.alarm (s : State) (t : Terms) (k : HoldCause) : State :=
  ((s.raiseFlag .breach).claimGroups (s.termGroups t) k).noticeTerms t

section alarm

variable (s) (t : Terms) (k : HoldCause)

theorem isSet_alarm_breach : (s.alarm t k).attention.isSet .breach = true := by
  rw [State.alarm, (noticeTerms_leaves _ t).2 .breach nofun]
  exact (State.isSet_foldl_claim_iff k _ _ (s.nodup_termGroups t) _).2 (.inl (s.isSet_raiseFlag _))

theorem group_alarm (g : GroupId) : (s.alarm t k).group g =
    if ∃ p ∈ t.points, (s.point p).group = some g then (s.claim g k).group g else s.group g := by
  have claimed := State.group_foldl_claim k (s.termGroups t) (s.nodup_termGroups t) (s.raiseFlag .breach) g
  refine (group_congr (noticeTerms_leaves _ t).1 g).trans (claimed.trans ?_)
  simp only [State.mem_termGroups]
  rw [State.group_claim_congr (s := s.raiseFlag .breach) (t := s) rfl k]
  rfl

theorem isSet_alarm_held (g : GroupId) : (s.alarm t k).attention.isSet (.held g) = true ↔
    s.attention.isSet (.held g) = true
      ∨ ((∃ p ∈ t.points, (s.point p).group = some g) ∧ ((s.group g).state = .staging ∨ (s.group g).state = .gap)) := by
  rw [State.alarm, (noticeTerms_leaves _ t).2 (.held g) nofun]
  refine (State.isSet_foldl_claim_iff k _ _ (s.nodup_termGroups t) _).trans (or_congr ?_ ?_)
  · rw [State.isSet_raiseFlag_iff]
    exact or_iff_left nofun
  · constructor
    · rintro ⟨h, named, same, moving⟩
      cases same
      exact ⟨(s.mem_termGroups t g).1 named, moving⟩
    · rintro ⟨named, moving⟩
      exact ⟨g, (s.mem_termGroups t g).2 named, rfl, moving⟩

theorem jog_alarm_of_mem {j : ActiveJog} (active : s.jog.active = some j) (mem : j.point ∈ t.points) :
    (s.alarm t k).jog = ⟨none, .limit, some j.point⟩ := by
  have still : ((s.raiseFlag .breach).claimGroups (s.termGroups t) k).jog.active = some j := by
    rw [jog_claimGroups]
    exact active
  rw [State.alarm, noticeTerms_of_mem still mem]
  exact State.jog_endJog _ still _

theorem jog_alarm_of_clear (clear : ∀ j, s.jog.active = some j → j.point ∉ t.points) : (s.alarm t k).jog = s.jog := by
  rw [State.alarm, noticeTerms_of_clear]
  · exact jog_claimGroups _ _ _
  · rw [jog_claimGroups]
    exact clear

end alarm

/-- What entering WARN does (R97, R98). -/
theorem enterState_warn (s : State) (t : Terms) : s.enterState t .warn = (s.raiseFlag .warn).noticeTerms t := rfl

theorem enterState_breach (s : State) (t : Terms) : s.enterState t .breach = s.alarm t .breach := rfl

theorem enterState_blind (s : State) (t : Terms) : s.enterState t .blind = s.alarm t .blind := rfl

/-- A jog of a term point ends with LIMIT as a constraint enters any state but CLEAR (R97). -/
theorem jog_enterState_of_mem {t : Terms} {st : ConstraintState} (enters : st = .warn ∨ st = .breach ∨ st = .blind)
    {j : ActiveJog} (active : s.jog.active = some j) (mem : j.point ∈ t.points) :
    (s.enterState t st).jog = ⟨none, .limit, some j.point⟩ := by
  rcases enters with rfl | rfl | rfl
  · rw [enterState_warn, noticeTerms_of_mem (s := s.raiseFlag .warn) active mem]
    exact State.jog_endJog (s.raiseFlag .warn) active _
  · exact jog_alarm_of_mem s t _ active mem
  · exact jog_alarm_of_mem s t _ active mem

theorem jog_enterState_of_clear {t : Terms} (st : ConstraintState)
    (clear : ∀ j, s.jog.active = some j → j.point ∉ t.points) : (s.enterState t st).jog = s.jog := by
  cases st with
  | idle => rfl
  | clear => rfl
  | warn =>
    rw [enterState_warn, noticeTerms_of_clear (s := s.raiseFlag .warn) clear]
    rfl
  | breach => exact jog_alarm_of_clear s t _ clear
  | blind => exact jog_alarm_of_clear s t _ clear

/-! ### Evaluations (R95 to R98) -/

section evaluate

variable {c : ConstraintId} {x : Constraint} {v : Int}

theorem evaluate_of_same (held : s.constraint c = some x) (value : s.constraintValue x.terms = some v)
    (same : judgeValue (s.anyTermLost x.terms) v x.limit x.warn = x.state) :
    s.evaluate c = s.setConstraint c (some { x with last := some v }) := by
  unfold State.evaluate
  rw [held]
  dsimp only
  rw [value]
  dsimp only
  rw [if_pos same, same]

theorem evaluate_of_enters {st : ConstraintState} (held : s.constraint c = some x)
    (value : s.constraintValue x.terms = some v) (judged : judgeValue (s.anyTermLost x.terms) v x.limit x.warn = st)
    (enters : st ≠ x.state) :
    s.evaluate c = (s.setConstraint c (some { x with state := st, last := some v })).enterState x.terms st := by
  unfold State.evaluate
  rw [held]
  dsimp only
  rw [value]
  dsimp only
  rw [judged, if_neg enters]

end evaluate

/-! ### The four rows of R95's table -/

theorem anyTermLost_iff (t : Terms) : s.anyTermLost t = true ↔ ∃ p ∈ t.points, (s.point p).health = .lost := by
  simp only [State.anyTermLost, List.any_eq_true, beq_iff_eq]

theorem judging_iff : s.judging = true ↔ s.plan.state = .compiled ∨ s.plan.state = .inService := by
  rw [State.judging, Bool.or_eq_true, beq_iff_eq, beq_iff_eq]

/-- Settles O30: the judged state by R95's table, and the evaluation by whether it leaves the state or enters it. -/
theorem evaluationFollowsItsTable : Obligations.EvaluationFollowsItsTable := by
  refine ⟨fun s c x v held value => ?record, fun s a b c d x y z w la lb => ⟨?two, fun lc ld => ?four⟩,
    fun x h r height rest => ?lift, fun s p => ⟨fun judging => ?judges, fun notCompiled notInService => ?quiet⟩⟩
  case two => simp only [State.constraintValue, la, lb]
  case four => simp only [State.constraintValue, la, lb, lc, ld]
  case lift => rw [Point.lift, height, rest]
  case judges => exact if_pos (judging_iff.2 judging)
  case quiet => exact if_neg fun judging => (judging_iff.1 judging).elim notCompiled notInService
  case record =>
    dsimp only
    generalize judged : judgeValue (s.anyTermLost x.terms) v x.limit x.warn = st
    have enters := evaluate_of_enters held value judged
    refine ⟨fun lost => ?blind, fun live above => ?breach, fun live below near => ?warn, fun live below clear => ?clear,
      ?written, fun same => ?same, fun changed clear => ?entersClear, fun changed warn => ?entersWarn,
      fun changed alarm => ?alarms, fun changed state j active mem => ?endsJog, fun clear => ?keepsJog,
      fun d ne => s.constraint_evaluate_of_ne ne.symm, State.Judged.evaluate s c⟩
    case blind => rw [← judged, judgeValue, if_pos ((anyTermLost_iff _).2 lost)]
    case breach => rw [← judged, judgeValue, if_neg fun l => live ((anyTermLost_iff _).1 l), if_pos above]
    case warn => rw [← judged, judgeValue, if_neg fun l => live ((anyTermLost_iff _).1 l), if_neg below, if_pos near]
    case clear => rw [← judged, judgeValue, if_neg fun l => live ((anyTermLost_iff _).1 l), if_neg below, if_neg clear]
    case written =>
      rw [State.constraint_evaluate_self, held, Option.map_some, value]
      dsimp only
      rw [judged]
    case same => exact evaluate_of_same held value (judged.trans same)
    case entersClear =>
      rw [enters changed, clear]
      rfl
    case entersWarn =>
      obtain ⟨groups, flags⟩ := noticeTerms_leaves
        ((s.setConstraint c (some { x with state := .warn, last := some v })).raiseFlag .warn) x.terms
      rw [enters changed, warn, enterState_warn]
      refine ⟨(flags .warn nofun).trans (State.isSet_raiseFlag _ _), groups, fun g => (flags (.held g) nofun).trans ?_⟩
      exact attention_isSet_congr ((State.isSet_raiseFlag_iff _ _ _).trans (or_iff_left nofun))
    case alarms =>
      have entered : s.evaluate c = (s.setConstraint c (some { x with state := st, last := some v })).alarm x.terms
          (if st = .breach then .breach else .blind) := by
        rw [enters changed]
        rcases alarm with rfl | rfl
        · rfl
        · rfl
      rw [entered]
      refine ⟨isSet_alarm_breach _ _ _, fun g => ⟨fun named => ⟨?_, fun moving => ?_⟩, fun unnamed => ?_, fun not => ?_⟩⟩
      · exact (group_alarm _ _ _ g).trans ((if_pos named).trans
          (State.group_claim_congr (s := s.setConstraint c _) (t := s) rfl _))
      · exact (isSet_alarm_held _ _ _ g).2 (.inr ⟨named, moving⟩)
      · exact (group_alarm _ _ _ g).trans (if_neg unnamed)
      · exact attention_isSet_congr ((isSet_alarm_held _ _ _ g).trans (or_iff_left not))
    case endsJog =>
      rw [enters changed]
      exact jog_enterState_of_mem state active mem
    case keepsJog =>
      by_cases same : st = x.state
      · rw [evaluate_of_same held value (judged.trans same)]
        rfl
      · rw [enters same]
        exact jog_enterState_of_clear st clear

/-! ### The conditions of a point (R102 to R105) -/

theorem Condition.bit_lt (c : Condition) : c.bit < 4 := by cases c <;> decide

theorem allConditions_bit (c : Condition) : allConditions[c.bit]? = some c := by cases c <;> rfl

theorem Condition.bit_inj {c d : Condition} (h : c.bit = d.bit) : c = d := by
  have same := allConditions_bit c
  rw [h, allConditions_bit] at same
  exact (Option.some.inj same).symm

theorem getLsbD_eraseBit_self {n : Nat} (m : BitVec n) (i : Nat) : (eraseBit m i).getLsbD i = false := by
  by_cases lt : i < n
  · simp [eraseBit, lt]
  · simp [eraseBit, BitVec.getLsbD_of_ge _ _ (Nat.le_of_not_lt lt)]

theorem hasCondition_setCondition_self (x : Point) (c : Condition) (present : Bool) :
    (x.setCondition c present).hasCondition c = present := by
  cases present with
  | true => exact getLsbD_insertBit_self _ c.bit_lt
  | false => exact getLsbD_eraseBit_self _ _

theorem hasCondition_setCondition_of_ne (x : Point) {c d : Condition} (other : d ≠ c) (present : Bool) :
    (x.setCondition c present).hasCondition d = x.hasCondition d := by
  have bits : c.bit ≠ d.bit := fun h => other (Condition.bit_inj h).symm
  cases present with
  | true => exact getLsbD_insertBit_of_ne _ bits
  | false => exact getLsbD_eraseBit_of_ne _ bits

theorem testCondition_overload (permit : Permit) (x : Point) :
    x.testCondition permit .overload = true ↔ ∃ n d, x.load = some n ∧ x.derated = some d ∧ d < n := overloaded_iff x

theorem testCondition_stroke (permit : Permit) (x : Point) : x.testCondition permit .stroke = true ↔
    x.flags.getLsbD 2 = true ∧ (permit = .raise ∨ x.hasCondition .stroke = true) := by
  rw [Point.testCondition, Bool.and_eq_true, Bool.or_eq_true, beq_iff_eq]
  rfl

/-! ### A claim on the group that a record names -/

section claimOn

variable (s) (o : Option GroupId) (k : HoldCause) (g : GroupId)

theorem group_claimOn : (s.claimOn o k).group g = if o = some g then (s.claim g k).group g else s.group g := by
  cases o with
  | none => rfl
  | some h =>
    by_cases same : h = g
    · subst same
      rw [if_pos rfl]
      rfl
    · rw [if_neg fun eq => same (Option.some.inj eq)]
      exact s.group_claim_of_ne same k

theorem isSet_claimOn_held : (s.claimOn o k).attention.isSet (.held g) = true ↔
    s.attention.isSet (.held g) = true ∨ (o = some g ∧ ((s.group g).state = .staging ∨ (s.group g).state = .gap)) := by
  cases o with
  | none => simp [State.claimOn]
  | some h =>
    refine (s.isSet_claim_iff h k (.held g)).trans (or_congr_right ?_)
    simp only [Option.some.injEq, Flag.held.injEq]
    constructor
    · rintro ⟨rfl, moving⟩
      exact ⟨rfl, moving⟩
    · rintro ⟨rfl, moving⟩
      exact ⟨rfl, moving⟩

theorem claimOn_leaves : (s.claimOn o k).points = s.points ∧ (s.claimOn o k).jog = s.jog ∧ (s.claimOn o k).skew = s.skew := by
  obtain ⟨x, a, eq⟩ := s.claimOn_eq o k
  rw [eq]
  exact ⟨rfl, rfl, rfl⟩

end claimOn

/-! ### A jog notice about a point (R97, R105) -/

theorem jogNotice_of_active {j : ActiveJog} (active : s.jog.active = some j) (p : PointId) (o : JogOutcome) :
    s.jogNotice p o = if j.point = p then s.endJog o else s := by
  rw [State.jogNotice, active]

/-- A jog notice leaves the groups, every flag but JOG, and the conditions of the points. -/
theorem jogNotice_leaves (s : State) (p : PointId) (o : JogOutcome) : (s.jogNotice p o).groups = s.groups
    ∧ (∀ f, f ≠ .jog → (s.jogNotice p o).attention.isSet f = s.attention.isSet f)
    ∧ ∀ q, ((s.jogNotice p o).point q).conditions = (s.point q).conditions := by
  cases active : s.jog.active with
  | none =>
    rw [State.jogNotice, active]
    exact ⟨rfl, fun _ _ => rfl, fun _ => rfl⟩
  | some j =>
    rw [jogNotice_of_active active]
    split
    · refine ⟨s.groups_endJog o, fun f other => isSet_endJog_of_ne s o other, fun q => ?_⟩
      rw [s.point_endJog active]
      split <;> rfl
    · exact ⟨rfl, fun _ _ => rfl, fun _ => rfl⟩

/-! ### The judging of a condition (R104, R105) -/

section condition

variable (s) (p : PointId) (c : Condition)

/-- What a condition that appears does before the jog notice: it is written, the claim made, LOAD set for OVERLOAD. -/
def State.withCondition : State :=
  let s1 := (s.setPoint p ((s.point p).setCondition c true)).claimOn (s.point p).group c.cause
  if c = .overload then s1.raiseFlag .load else s1

theorem judgeCondition_of_appears (absent : (s.point p).hasCondition c = false) :
    s.judgeCondition p c true = (s.withCondition p c).jogNotice p .fault := by
  unfold State.judgeCondition
  dsimp only
  rw [absent]
  rfl

theorem judgeCondition_of_other {present : Bool} (other : present = false ∨ (s.point p).hasCondition c = true) :
    s.judgeCondition p c present = s.setPoint p ((s.point p).setCondition c present) := by
  unfold State.judgeCondition
  dsimp only
  rcases other with none | held
  · rw [none]
    rfl
  · rw [held, Bool.not_true, Bool.and_false]
    rfl

theorem withCondition_leaves :
    (s.withCondition p c).points = (s.setPoint p ((s.point p).setCondition c true)).points
      ∧ (s.withCondition p c).jog = s.jog ∧ (∀ g, (s.withCondition p c).group g =
        if (s.point p).group = some g then (s.claim g c.cause).group g else s.group g)
      ∧ (∀ g, (s.withCondition p c).attention.isSet (.held g) = true ↔ s.attention.isSet (.held g) = true
        ∨ ((s.point p).group = some g ∧ ((s.group g).state = .staging ∨ (s.group g).state = .gap)))
      ∧ (c = .overload → (s.withCondition p c).attention.isSet .load = true) := by
  obtain ⟨points, jog, _⟩ := claimOn_leaves (s.setPoint p ((s.point p).setCondition c true)) (s.point p).group c.cause
  have groups (g : GroupId) := (group_claimOn (s.setPoint p ((s.point p).setCondition c true)) (s.point p).group c.cause
    g).trans (by rw [State.group_claim_congr (s := s.setPoint p _) (t := s) rfl]; rfl :
      _ = if (s.point p).group = some g then (s.claim g c.cause).group g else s.group g)
  have held (g : GroupId) := isSet_claimOn_held (s.setPoint p ((s.point p).setCondition c true)) (s.point p).group c.cause g
  unfold State.withCondition
  dsimp only
  split
  next overload =>
    refine ⟨points, jog, groups, fun g => ?_, fun _ => State.isSet_raiseFlag _ _⟩
    exact (State.isSet_raiseFlag_iff _ _ _).trans ((or_iff_left nofun).trans (held g))
  next other => exact ⟨points, jog, groups, held, fun overload => absurd overload other⟩

end condition

end Sys2Proof.Machine
end

section

/-! The judging of conditions and of body skew (R102 to R107). -/
namespace Sys2Proof.Machine

variable {s : State}

/-! ### A condition judged (R104, R105) -/

section judgeCondition

variable (s) (p : PointId) (c : Condition)

/-- The conditions of the point after one is judged (R104). -/
theorem conditions_judgeCondition (present : Bool) :
    ((s.judgeCondition p c present).point p).conditions = ((s.point p).setCondition c present).conditions := by
  by_cases other : present = false ∨ (s.point p).hasCondition c = true
  · rw [judgeCondition_of_other s p c other, State.point_setPoint_self]
  · rw [not_or, Bool.not_eq_false, Bool.not_eq_true] at other
    obtain ⟨rfl, absent⟩ := other
    obtain ⟨points, _⟩ := withCondition_leaves s p c
    rw [judgeCondition_of_appears s p c absent, (jogNotice_leaves _ p .fault).2.2 p]
    have written : (s.withCondition p c).point p = (s.point p).setCondition c true :=
      (congrArg (fun t => Table.at t p) points).trans (s.point_setPoint_self p _)
    rw [written]

theorem hasCondition_judgeCondition_self (present : Bool) :
    ((s.judgeCondition p c present).point p).hasCondition c = present := by
  rw [Point.hasCondition, conditions_judgeCondition]
  exact hasCondition_setCondition_self _ c present

theorem hasCondition_judgeCondition_of_ne (present : Bool) {d : Condition} (other : d ≠ c) :
    ((s.judgeCondition p c present).point p).hasCondition d = (s.point p).hasCondition d := by
  rw [Point.hasCondition, conditions_judgeCondition]
  exact hasCondition_setCondition_of_ne _ other present

section appears

variable {s p c}

/-- A condition that appears claims its name on the point's group, and on no other (R105). -/
theorem group_judgeCondition_of_appears (absent : (s.point p).hasCondition c = false) (g : GroupId) :
    (s.judgeCondition p c true).group g =
      if (s.point p).group = some g then (s.claim g c.cause).group g else s.group g := by
  obtain ⟨_, _, groups, _⟩ := withCondition_leaves s p c
  rw [judgeCondition_of_appears s p c absent]
  exact (group_congr (jogNotice_leaves _ p .fault).1 g).trans (groups g)

theorem isSet_held_judgeCondition_of_appears (absent : (s.point p).hasCondition c = false) (g : GroupId) :
    (s.judgeCondition p c true).attention.isSet (.held g) = true ↔ s.attention.isSet (.held g) = true
      ∨ ((s.point p).group = some g ∧ ((s.group g).state = .staging ∨ (s.group g).state = .gap)) := by
  obtain ⟨_, _, _, held, _⟩ := withCondition_leaves s p c
  rw [judgeCondition_of_appears s p c absent, (jogNotice_leaves _ p .fault).2.1 (.held g) nofun]
  exact held g

theorem isSet_load_judgeCondition_of_appears (absent : (s.point p).hasCondition .overload = false) :
    (s.judgeCondition p .overload true).attention.isSet .load = true := by
  obtain ⟨_, _, _, _, load⟩ := withCondition_leaves s p .overload
  rw [judgeCondition_of_appears s p _ absent, (jogNotice_leaves _ p .fault).2.1 .load nofun]
  exact load rfl

theorem jog_judgeCondition_of_appears (absent : (s.point p).hasCondition c = false) {j : ActiveJog}
    (active : s.jog.active = some j) :
    (s.judgeCondition p c true).jog = if j.point = p then ⟨none, .fault, some p⟩ else s.jog := by
  obtain ⟨_, jog, _⟩ := withCondition_leaves s p c
  have still : (s.withCondition p c).jog.active = some j := (congrArg JogSlot.active jog).trans active
  rw [judgeCondition_of_appears s p c absent, jogNotice_of_active still]
  split
  next same => rw [State.jog_endJog _ still, same]
  next => exact jog

end appears

end judgeCondition

/-! ### Body skew (R107) -/

section skew

variable {b : BodyId} {x : Body}

theorem judgeSkew_of_other (held : s.body b = some x) (other : s.skewed x = false ∨ s.skew.at b = true) :
    s.judgeSkew b = s.setSkew b (s.skewed x) := by
  unfold State.judgeSkew
  rw [held]
  dsimp only
  refine if_neg ?_
  rw [Bool.and_eq_true, Bool.not_eq_true']
  rintro ⟨skewed, was⟩
  rw [skewed, was] at other
  exact other.elim nofun nofun

theorem judgeSkew_of_appears (held : s.body b = some x) (skewed : s.skewed x = true) (was : s.skew.at b = false) :
    s.judgeSkew b = ((s.setSkew b true).raiseFlag .load).claimOn x.group .skew := by
  unfold State.judgeSkew
  rw [held]
  dsimp only
  rw [skewed, was]
  rfl

theorem skew_judgeSkew (held : s.body b = some x) : (s.judgeSkew b).skew = s.skew.put b (s.skewed x) := by
  by_cases other : s.skewed x = false ∨ s.skew.at b = true
  · rw [judgeSkew_of_other held other]
    rfl
  · rw [not_or, Bool.not_eq_false, Bool.not_eq_true] at other
    obtain ⟨skewed, was⟩ := other
    rw [judgeSkew_of_appears held skewed was, skewed]
    exact (claimOn_leaves _ _ _).2.2

end skew

/-- Settles O31: the tests one by one, a judged condition by whether it appears, and skew the same way. -/
theorem conditionsAndSkewAppear : Obligations.ConditionsAndSkewAppear := by
  refine ⟨fun permit x => ⟨testCondition_overload permit x, .rfl, .rfl, testCondition_stroke permit x⟩, fun s p permit => rfl,
    fun s p c present => ⟨hasCondition_judgeCondition_self s p c present,
      fun d other => hasCondition_judgeCondition_of_ne s p c present other, fun other => ?quiet,
      fun appears absent => ?appears, State.Judged.judgeCondition s p c present⟩,
    fun s b x held => ⟨skew_judgeSkew held, judgeSkew_of_other held, fun skewed was => ?skew, State.Judged.judgeSkew s b⟩,
    fun s p => ⟨fun none => ?unseated, fun w seated => ?seated⟩⟩
  case quiet =>
    rw [conditions_judgeCondition]
    exact judgeCondition_of_other s p c other
  case appears =>
    subst appears
    refine ⟨fun g member => ⟨?_, fun moving => ?_⟩, fun g other => ⟨?_, ?_⟩, fun overload => ?_,
      fun j active => jog_judgeCondition_of_appears absent active⟩
    · rw [group_judgeCondition_of_appears absent, if_pos member]
    · exact (isSet_held_judgeCondition_of_appears absent g).2 (.inr ⟨member, moving⟩)
    · rw [group_judgeCondition_of_appears absent, if_neg other]
    · exact attention_isSet_congr ((isSet_held_judgeCondition_of_appears absent g).trans (or_iff_left fun h => other h.1))
    · subst overload
      exact isSet_load_judgeCondition_of_appears absent
  case skew =>
    have held' (g : GroupId) := isSet_claimOn_held ((s.setSkew b true).raiseFlag .load) x.group .skew g
    have before (g : GroupId) : ((s.setSkew b true).raiseFlag .load).attention.isSet (.held g) =
        s.attention.isSet (.held g) := attention_isSet_congr ((State.isSet_raiseFlag_iff _ _ _).trans (or_iff_left nofun))
    rw [judgeSkew_of_appears held skewed was]
    refine ⟨?load, fun g member => ⟨?_, fun moving => (held' g).2 (.inr ⟨member, moving⟩)⟩, fun g other => ⟨?_, ?_⟩⟩
    case load =>
      exact (State.Accumulates.claimOn _ _ _).flag _ (State.isSet_raiseFlag _ _)
    · exact (group_claimOn _ _ _ g).trans ((if_pos member).trans
        (State.group_claim_congr (s := (s.setSkew b true).raiseFlag .load) (t := s) rfl _))
    · exact (group_claimOn _ _ _ g).trans (if_neg other)
    · exact (attention_isSet_congr ((held' g).trans (or_iff_left fun h => other h.1))).trans (before g)
  case unseated => rw [State.judgeSkewOf, none]
  case seated => rw [State.judgeSkewOf, seated]

end Sys2Proof.Machine
end

section

/-! The slots of a link (R76 to R88): what an engine sends, the replies it takes, and the break of a LINK-RESET
(R90, R91). -/
namespace Sys2Proof.Machine

variable {s : State}

/-! ### The choice of a slot (R77) -/

section choose

variable {e : Engine}

theorem choose_poll {r : RosterEntry} (quiet : e.stopPending = false) (next : e.nextPoll = some r) : e.choose = .poll r := by
  unfold Engine.choose
  rw [quiet, next]
  rfl

theorem choose_probe {p : PointId} {rest : List PointId} (quiet : e.stopPending = false) (none : e.nextPoll = none)
    (queue : e.queue = p :: rest) : e.choose = .probe p := by
  unfold Engine.choose
  rw [quiet, none, queue]
  rfl

theorem choose_lowest {r : RosterEntry} {rest : List RosterEntry} (quiet : e.stopPending = false)
    (none : e.nextPoll = none) (queue : e.queue = []) (cycle : e.cycle.isSome) (roster : e.roster = r :: rest) :
    e.choose = .poll r := by
  obtain ⟨c, cycle⟩ := Option.isSome_iff_exists.1 cycle
  unfold Engine.choose
  rw [quiet, none, queue, cycle, roster]
  rfl

theorem choose_nothing (quiet : e.stopPending = false) (queue : e.queue = []) (roster : e.roster = []) :
    e.choose = .nothing := by
  have none : e.nextPoll = none := by
    rw [Engine.nextPoll, roster]
    rfl
  unfold Engine.choose
  rw [quiet, none, queue, roster]
  cases e.cycle <;> rfl

theorem slotFree_iff : e.slotFree = true ↔ e.exchange = none ∨ e.exchange = some .allStop := by
  rw [Engine.slotFree, Bool.or_eq_true, beq_iff_eq, beq_iff_eq]

end choose

theorem nodeAt_of_address {p : PointId} {a : Address} (h : (s.point p).address = some a) : s.nodeAt p = a.node := by
  rw [State.nodeAt, h]
  rfl

/-- Settles O49: the choice by its steps, and each command as an event of an engine whose slot is free. -/
theorem slotsSend : Obligations.SlotsSend := by
  refine ⟨fun e => ⟨e.choose_eq_allStop_iff.2, fun r => choose_poll, fun p rest => choose_probe,
      fun r rest => choose_lowest, choose_nothing, fun sorted r => Engine.nextPoll_eq_some_iff sorted r⟩,
    fun s l r hw running free choice => ?poll, fun s l p a hw running free choice address => ?probe,
    fun s l hw link free pending => ?allStop⟩
  case poll =>
    refine congrArg Host.Outcome.next ((event_working s hw _).trans ((if_pos ⟨running, slotFree_iff.2 free⟩).trans ?_))
    rw [choice]
    rfl
  case probe =>
    refine congrArg Host.Outcome.next ((event_working s hw _).trans ((if_pos ⟨running, slotFree_iff.2 free⟩).trans ?_))
    rw [choice, ← nodeAt_of_address address]
    rfl
  case allStop =>
    exact congrArg Host.Outcome.next ((event_working s hw _).trans (if_pos ⟨link, slotFree_iff.2 free, pending⟩))

/-! ### The end of a slot (R76) -/

theorem endSlot_eq (s : State) (l : LinkId) : s.endSlot l = s.setEngine l { s.engine l with
    exchange := none
    slotLeft := none
    cycle := if (s.engine l).roster = [] ∧ (s.engine l).queue = [] then none else (s.engine l).cycle } :=
  congrArg (s.setEngine l) (Engine.rested_of_none (e := { s.engine l with exchange := none, slotLeft := none }) rfl)

theorem setGoodRun_eq (s : State) (l : LinkId) (p : PointId) (n : Nat) : s.setGoodRun l p n =
    s.setEngine l { s.engine l with
      roster := (s.engine l).roster.map fun r => if r.point = p then { r with goodRun := n } else r } := rfl

theorem exchange_setGoodRun (s : State) (l m : LinkId) (p : PointId) (n : Nat) :
    ((s.setGoodRun l p n).engine m).exchange = (s.engine m).exchange := by
  by_cases same : l = m
  · subst same
    have written := congrArg Engine.exchange (s.engine_setEngine_self l ((s.engine l).setGoodRun p n))
    exact written
  · exact congrArg Engine.exchange (s.engine_setEngine_of_ne same _)

theorem exchange_endSlot (s : State) (l : LinkId) : ((s.endSlot l).engine l).exchange = none := by
  rw [State.endSlot, State.engine_setEngine_self]
  exact Engine.exchange_slotOver _

/-! ### A stored report (R80, R82) -/

section report

variable (s) (l : LinkId) (p : PointId) (f : ReplyFields)

/-- The point of a stored report holds its fields (R80). -/
theorem point_storeReport : ∃ h, (s.storeReport l p f).point p = { (s.point p).report f with health := h } := by
  rcases s.storeReport_cases l p f with eq | eq | eq
  · refine ⟨(s.point p).health, ?_⟩
    rw [eq]
    exact s.point_setPoint_self p _
  · refine ⟨(s.point p).health, ?_⟩
    rw [eq]
    exact s.point_setPoint_self p _
  · refine ⟨.live, ?_⟩
    rw [eq]
    exact s.point_setPoint_self p _

/-- A stored report leaves the exchanges of the engines. -/
theorem exchange_storeReport (m : LinkId) : ((s.storeReport l p f).engine m).exchange = (s.engine m).exchange := by
  rcases s.storeReport_cases l p f with eq | eq | eq
  · rw [eq]
    rfl
  · rw [eq]
    exact exchange_setGoodRun (s.setPoint p _) l m p 1
  · rw [eq]
    exact exchange_setGoodRun (s.setPoint p _) l m p 0

/-- The three blocks take a report in one of the four orders left open (R80, R133, R150). -/
theorem handOn_order (permit : Permit) :
    ∃ u ∈ [((s.monitorConditionsFirst p permit).groupTakes p).jogTakes p,
        ((s.monitorConstraintsFirst p permit).groupTakes p).jogTakes p,
        ((s.groupTakes p).jogTakes p).monitorConditionsFirst p permit,
        ((s.groupTakes p).jogTakes p).monitorConstraintsFirst p permit],
      s.handOn p permit = { u with choices := (s.handOn p permit).choices } := by
  refine chooseOrder_ind (motive := fun t => ∃ u : State, u ∈ [((s.monitorConditionsFirst p permit).groupTakes p).jogTakes p,
    ((s.monitorConstraintsFirst p permit).groupTakes p).jogTakes p,
    ((s.groupTakes p).jogTakes p).monitorConditionsFirst p permit,
    ((s.groupTakes p).jogTakes p).monitorConstraintsFirst p permit] ∧ t = { u with choices := t.choices }) _ _ ?_ ?_ ?_
  · rintro t n ⟨u, mem, eq⟩
    exact ⟨u, mem, by rw [eq]⟩
  · exact ⟨_, List.mem_cons_self, rfl⟩
  · exact fun t mem => ⟨t, List.mem_cons_of_mem _ mem, rfl⟩

end report

/-! ### A REPLY in a poll slot (R76, R79, R83) -/

theorem goodReply_iff (n : NodeAddr) (f : ReplyFields) :
    goodReply n f = true ↔ f.node = n.val ∧ f.height ≤ 30000 ∧ f.load ≤ 6000 := by
  rw [goodReply, Bool.and_eq_true, Bool.and_eq_true, beq_iff_eq, decide_eq_true_eq, decide_eq_true_eq, and_assoc]
  rfl

section poll

variable {l : LinkId} {p : PointId} {n : NodeAddr} {permit : Permit} {target : Option Nat} {stop d : Bool}

theorem takeReply_good {f : ReplyFields} (slot : (s.engine l).exchange = some (.poll p n permit target stop d))
    (good : goodReply n f = true) :
    s.takeReply l f = if d then s.endSlot l else (s.endSlot l).takeReport l p permit f := by
  unfold State.takeReply
  rw [slot]
  dsimp only
  rw [good]
  exact if_neg nofun

theorem takeReply_bad {f : ReplyFields} (slot : (s.engine l).exchange = some (.poll p n permit target stop d))
    (bad : goodReply n f = false) : s.takeReply l f = s.pollUnanswered l := by
  unfold State.takeReply
  rw [slot]
  dsimp only
  rw [bad]
  exact if_pos rfl

theorem takeAnnounce_of_poll (slot : (s.engine l).exchange = some (.poll p n permit target stop d)) (a : AnnounceFields) :
    s.takeAnnounce l a = s.pollUnanswered l := by
  unfold State.takeAnnounce
  rw [slot]

end poll

/-- Settles O50: a good REPLY by what the stored report keeps, any other by the slot it ends without an answer. -/
theorem replyStoresTheReport : Obligations.ReplyStoresTheReport := by
  refine ⟨fun s l p n permit target stop f hw => ⟨fun node height load => ?good, fun d slot => ⟨fun bad => ?bad, fun a => ?announce⟩⟩,
    fun s p permit => ⟨State.Judged.handOn s p permit, handOn_order s p permit⟩,
    fun s l p f => ⟨fun live => if_pos live, fun lost first => ?first, fun lost second => ?second⟩⟩
  case good =>
    have good : goodReply n f = true := (goodReply_iff n f).2 ⟨node, height, load⟩
    refine ⟨fun slot => ⟨((s.endSlot l).takeReport l p permit f), ?_, rfl, ?_⟩, fun slot => ?_⟩
    · refine congrArg Host.Outcome.next ((event_working s hw _).trans ((takeReply_good slot good).trans ?_))
      exact if_neg nofun
    · obtain ⟨h, stored⟩ := point_storeReport (s.endSlot l) l p f
      have judged := State.Judged.handOn ((s.endSlot l).storeReport l p f) p permit
      have kept : ((s.endSlot l).takeReport l p permit f).point p =
          { ((s.endSlot l).storeReport l p f).handOn p permit |>.point p with
            permit := (((s.endSlot l).takeReport l p permit f).point p).permit } := by
        rw [State.takeReport, State.point_settle]
      have link : ((s.endSlot l).takeReport l p permit f).engine l = ((s.endSlot l).storeReport l p f).engine l :=
        congrArg (fun x => Table.at x l) judged.links
      rw [judged.points p, stored] at kept
      rw [kept, link, exchange_storeReport, exchange_endSlot]
      exact ⟨rfl, rfl, rfl, rfl, rfl⟩
    · exact congrArg Host.Outcome.next ((event_working s hw _).trans (takeReply_good slot good))
  case bad =>
    refine congrArg Host.Outcome.next ((event_working s hw _).trans ((takeReply_bad slot ?_).trans
      (event_working s hw fun t => t.pollUnanswered l).symm))
    rw [← Bool.not_eq_true, goodReply_iff]
    rintro ⟨node, height, load⟩
    rcases bad with ne | high | heavy
    · exact ne node
    · exact Nat.not_lt.2 height high
    · exact Nat.not_lt.2 load heavy
  case announce =>
    exact congrArg Host.Outcome.next ((event_working s hw _).trans ((takeAnnounce_of_poll slot a).trans
      (event_working s hw fun t => t.pollUnanswered l).symm))
  all_goals
    unfold State.storeReport
    dsimp only
    rw [if_neg (not_not.2 lost)]
  case first => exact if_pos first
  case second =>
    rw [if_neg second, State.point_setPoint_self, State.setPoint_setPoint]
    rfl

/-! ### The break of a LINK-RESET (R90, R91) -/

theorem linkHasPoint_iff (l : LinkId) : s.linkHasPoint l = true ↔ ∃ p, (s.point p).onLink l = true := by
  rw [linkHasPoint_eq_true_iff, not_forall]
  simp only [Bool.not_eq_false]

theorem endBreak_of_breaking {l : LinkId} (resetting : (s.engine l).link = .resetting)
    (breaking : (s.engine l).breakLeft.isSome) : s.endBreak l =
    if s.linkHasPoint l then
      (s.setEngine l { s.engine l with
        link := .running, breakLeft := none, exchange := none, slotLeft := none, queue := s.draftsByNode l }).mapPoints
        fun _ x => if x.onLink l && x.life == .draft then { x with bindOutcome := .pending } else x
    else s.setEngine l { s.engine l with
      link := .idle, breakLeft := none, exchange := none, slotLeft := none, queue := [] } := by
  have held : (s.engine l).breaking = true := by
    rw [Engine.breaking, resetting, breaking]
    rfl
  unfold State.endBreak
  dsimp only
  rw [held]
  rfl

/-- Settles O54: the start and the end of a break as events of an engine in RESETTING. -/
theorem breaksStartAndEnd : Obligations.BreaksStartAndEnd := by
  refine ⟨fun s l hw resetting none => ?start, fun s l hw resetting breaking points => ?runs,
    fun s l hw resetting breaking bare => ?idles, fun s l => rfl⟩
  case start =>
    refine congrArg Host.Outcome.next ((event_working s hw _).trans (if_pos ⟨resetting, ?_⟩))
    rw [none]
    rfl
  case runs =>
    refine ⟨_, congrArg Host.Outcome.next ((event_working s hw _).trans ((endBreak_of_breaking resetting breaking).trans
      (if_pos ((linkHasPoint_iff l).2 points)))), s.engine_setEngine_self l _, fun p => ?_, rfl,
      fun m ne => s.engine_setEngine_of_ne ne.symm _⟩
    refine (Table.at_mapAll s.points _ p).trans ?_
    simp only [Bool.and_eq_true, beq_iff_eq]
    rfl
  case idles =>
    refine congrArg Host.Outcome.next ((event_working s hw _).trans ((endBreak_of_breaking resetting breaking).trans
      (if_neg fun has => ?_)))
    obtain ⟨p, on⟩ := (linkHasPoint_iff l).1 has
    rw [bare p] at on
    cases on

end Sys2Proof.Machine
end

section

/-! A missed reply and the loss of a point (R81, R97 to R99, R150). -/
namespace Sys2Proof.Machine

variable {s : State}

/-! ### A missed reply (R81) -/

section missed

variable {l : LinkId} {p : PointId}

theorem missReply_live {m : Nat} (live : (s.point p).health = .live) (few : (s.point p).missed < 2)
    (count : (s.point p).missed + 1 = m) : s.missReply l p = s.setPoint p { s.point p with missed := m } := by
  have counted : min Config.missedToLose ((s.point p).missed + 1) = m := by
    rw [count]
    exact Nat.min_eq_right (show m ≤ 3 by omega)
  unfold State.missReply
  dsimp only
  rw [counted, if_neg (by rw [live]; nofun), if_neg]
  rintro ⟨_, third⟩
  rw [show Config.missedToLose = 3 from rfl] at third
  omega

theorem missReply_third (live : (s.point p).health = .live) (many : 2 ≤ (s.point p).missed) :
    s.missReply l p = (s.setPoint p { s.point p with missed := 3 }).lose l p := by
  have counted : min Config.missedToLose ((s.point p).missed + 1) = 3 :=
    Nat.min_eq_left (show 3 ≤ (s.point p).missed + 1 by omega)
  unfold State.missReply
  dsimp only
  rw [counted, if_neg (by rw [live]; nofun), if_pos ⟨live, rfl⟩]

theorem missReply_lost (lost : (s.point p).health = .lost) : s.missReply l p =
    (s.setPoint p { s.point p with missed := min 3 ((s.point p).missed + 1) }).setGoodRun l p 0 := by
  unfold State.missReply
  dsimp only
  rw [if_pos lost]
  rfl

theorem pollUnanswered_of_poll {n : NodeAddr} {permit : Permit} {target : Option Nat} {stop d : Bool}
    (slot : (s.engine l).exchange = some (.poll p n permit target stop d)) :
    s.pollUnanswered l = if d then s.endSlot l else ((s.endSlot l).missReply l p).settle := by
  unfold State.pollUnanswered
  rw [slot]

end missed

/-! ### What the loss keeps of the jog and of a hold (R97, R129, R150) -/

/-- A jog is left as it stands, or ends with LIMIT. -/
def JogLimited (s t : State) : Prop := t.jog = s.jog ∨ (t.jog.active = none ∧ t.jog.outcome = .limit)

theorem JogLimited.trans {s t u : State} (h : JogLimited s t) (k : JogLimited t u) : JogLimited s u :=
  k.elim (fun same => by rwa [JogLimited, same]) .inr

theorem jogLimited_enterState (s : State) (t : Terms) (st : ConstraintState) : JogLimited s (s.enterState t st) := by
  by_cases clear : ∀ j, s.jog.active = some j → j.point ∉ t.points
  · exact .inl (jog_enterState_of_clear st clear)
  · push Not at clear
    obtain ⟨j, active, mem⟩ := clear
    have ends (enters : st = .warn ∨ st = .breach ∨ st = .blind) : JogLimited s (s.enterState t st) := by
      refine .inr ?_
      rw [jog_enterState_of_mem enters active mem]
      exact ⟨rfl, rfl⟩
    cases st with
    | idle => exact .inl rfl
    | clear => exact .inl rfl
    | warn => exact ends (.inl rfl)
    | breach => exact ends (.inr (.inl rfl))
    | blind => exact ends (.inr (.inr rfl))

/-- An evaluation leaves the jog or ends it with LIMIT (R97). -/
theorem jogLimited_evaluate (s : State) (c : ConstraintId) : JogLimited s (s.evaluate c) := by
  unfold State.evaluate
  split
  · exact .inl rfl
  · split
    · exact .inl rfl
    · dsimp only
      split
      · exact .inl rfl
      · exact jogLimited_enterState (s.setConstraint c _) _ _

theorem jogLimited_evaluateIndex (s : State) (p : PointId) : JogLimited s (s.evaluateIndex p) := by
  have folds : ∀ (l : List ConstraintId) (s : State), JogLimited s (l.foldl State.evaluate s) := fun l => by
    induction l with
    | nil => exact fun s => .inl rfl
    | cons c l ih => exact fun s => (jogLimited_evaluate s c).trans (ih (s.evaluate c))
  unfold State.evaluateIndex
  split
  · exact folds _ s
  · exact .inl rfl

/-- A group in HOLDING, held from a state. -/
def HeldAt (g : GroupId) (st : HeldFrom) (t : State) : Prop :=
  (t.group g).state = .holding ∧ (t.group g).heldFrom = some st

/-- A group record in HOLDING stays there, held from the same state, whatever is claimed. -/
theorem heldAt_claim {g : GroupId} {st : HeldFrom} (held : HeldAt g st s) (h : GroupId) (c : HoldCause) :
    HeldAt g st (s.claim h c) := by
  by_cases same : h = g
  · subst same
    rw [HeldAt, s.group_claim_self, held.1]
    exact ⟨held.1, held.2⟩
  · rw [HeldAt, s.group_claim_of_ne same]
    exact held

theorem stable_heldAt (g : GroupId) (st : HeldFrom) : State.Stable (HeldAt g st) where
  flag _ held := held
  claim h c held := heldAt_claim held h c
  skew _ _ held := held
  constraint _ _ _ held := held
  motion _ held := held
  jogEnds _ _ held := held
  choices _ held := held
  completeStage {s h} staging held := by
    have other : h ≠ g := fun same => by
      rw [same, held.1] at staging
      cases staging
    rw [HeldAt, State.group_completeStage_of_ne other]
    exact held

/-- A claim holds a moving group from the state it was in (R129). -/
theorem heldAt_of_moving {g : GroupId} {st : HeldFrom} (c : HoldCause)
    (moving : ((s.group g).state = .staging ∧ st = .staging) ∨ ((s.group g).state = .gap ∧ st = .gap)) :
    HeldAt g st (s.claim g c) := by
  rcases moving with ⟨state, rfl⟩ | ⟨state, rfl⟩
  · rw [HeldAt, s.group_claim_self, state]
    exact ⟨rfl, rfl⟩
  · rw [HeldAt, s.group_claim_self, state]
    exact ⟨rfl, rfl⟩

/-! ### The records as the point is lost (R81) -/

section loss

variable (s) (l : LinkId) (p : PointId)

/-- The point LOST and its good run gone, before any effect (R81). -/
def State.withLost : State := (s.setPoint p { s.point p with health := .lost }).setGoodRun l p 0

theorem atLoss_eq : s.atLoss l p = ((s.withLost l p).raiseFlag .lost).claimOn (s.point p).group .lost := rfl

theorem point_withLost (q : PointId) :
    (s.withLost l p).point q = if p = q then { s.point p with health := .lost } else s.point q :=
  State.point_setPoint s p q _

theorem judged_atLoss : (s.withLost l p).Judged (s.atLoss l p) :=
  (State.Judged.raiseFlag _ _).trans (State.Judged.claimOn _ _ _)

/-- A loss is handed on in one of two orders, each a judgement of the records (R81, R150). -/
theorem lose_cases : ∃ n, s.lose l p = { ((s.atLoss l p).evaluateIndex p).jogNotice p .lost with choices := n }
    ∨ s.lose l p = { ((s.atLoss l p).jogNotice p .lost).evaluateIndex p with choices := n } := by
  obtain ⟨u, mem, eq⟩ := s.lose_order l p
  rcases List.mem_cons.1 mem with rfl | mem
  · exact ⟨_, .inl eq⟩
  · rw [List.mem_singleton.1 mem] at eq
    exact ⟨_, .inr eq⟩

/-- What is kept by an evaluation of the index, by the jog notice and by the count of choices is kept by the loss. -/
theorem lose_of_kept {P : State → Prop} (index : ∀ u, P u → P (u.evaluateIndex p))
    (notice : ∀ u, P u → P (u.jogNotice p .lost)) (choices : ∀ (u : State) n, P u → P { u with choices := n })
    (start : P (s.atLoss l p)) : P (s.lose l p) := by
  obtain ⟨n, eq | eq⟩ := lose_cases s l p
  · rw [eq]
    exact choices _ n (notice _ (index _ start))
  · rw [eq]
    exact choices _ n (index _ (notice _ start))

theorem judged_lose : (s.withLost l p).Judged (s.lose l p) :=
  lose_of_kept s l p (P := (s.withLost l p).Judged) (fun u h => h.trans (State.Judged.evaluateIndex u p))
    (fun u h => h.trans (State.Judged.jogNotice u p _)) (fun u n h => h.trans (State.Judged.choices u n)) (judged_atLoss s l p)

theorem accumulates_lose : (s.atLoss l p).Accumulates (s.lose l p) :=
  lose_of_kept s l p (P := (s.atLoss l p).Accumulates) (fun u h => h.trans (State.Accumulates.evaluateIndex u p))
    (fun u h => h.trans (State.Accumulates.jogNotice u p _))
    (fun u n h => h.trans (State.Accumulates.of_groups (t := { u with choices := n }) rfl fun _ h => h))
    (State.Accumulates.refl _)

theorem heldAt_lose {g : GroupId} {st : HeldFrom} (held : HeldAt g st (s.atLoss l p)) : HeldAt g st (s.lose l p) :=
  lose_of_kept s l p (fun _ => (stable_heldAt g st).evaluateIndex p) (fun _ => (stable_heldAt g st).jogNotice p _)
    (fun _ n => (stable_heldAt g st).choices n) held

theorem group_atLoss {g : GroupId} (member : (s.point p).group = some g) :
    (s.atLoss l p).group g = (s.claim g .lost).group g := by
  rw [atLoss_eq]
  exact (group_claimOn _ _ _ g).trans ((if_pos member).trans
    (State.group_claim_congr (s := (s.withLost l p).raiseFlag .lost) (t := s) rfl _))

theorem lost_lose : ((s.lose l p).point p).health = .lost := by
  rw [(judged_lose s l p).points p]
  exact congrArg Point.health ((point_withLost s l p p).trans (if_pos rfl))

/-! ### The constraints of the lost point (R97 to R99) -/

theorem constraintValue_withLost (t : Terms) : (s.withLost l p).constraintValue t = s.constraintValue t := by
  have lift (q : PointId) : ((s.withLost l p).point q).lift = (s.point q).lift := by
    rw [point_withLost]
    split
    next same => rw [← same, Point.lift, Point.lift]
    next => rfl
  cases t <;> simp only [State.constraintValue, lift]

theorem anyTermLost_withLost {t : Terms} (term : p ∈ t.points) : (s.withLost l p).anyTermLost t = true := by
  rw [anyTermLost_iff]
  refine ⟨p, term, ?_⟩
  rw [point_withLost, if_pos rfl]

/-- The evaluation of the index, on records that are the lost point's by judgements alone. -/
theorem constraint_evaluateIndex_of_judged {u : State} (judged : (s.withLost l p).Judged u) {c : ConstraintId}
    {x : Constraint} {v : Int} (judging : s.judging = true) (indexed : c ∈ (s.point p).index)
    (held : u.constraint c = some x) (term : p ∈ x.terms.points) (value : s.constraintValue x.terms = some v) :
    (u.evaluateIndex p).constraint c = some { x with state := .blind, last := some v } := by
  have index : (u.point p).index = (s.point p).index := by
    rw [judged.index, point_withLost, if_pos rfl]
  rw [State.constraint_evaluateIndex, if_pos ⟨judged.judging.trans judging, index ▸ indexed⟩, State.constraint_evaluate_self,
    held, Option.map_some, judged.constraintValue, constraintValue_withLost, value, judged.anyTermLost,
    anyTermLost_withLost s l p term]
  rfl

theorem constraint_jogNotice (u : State) (o : JogOutcome) (c : ConstraintId) :
    (u.jogNotice p o).constraint c = u.constraint c := by
  obtain ⟨x, j, a, eq⟩ := u.jogNotice_eq p o
  rw [eq]
  rfl

theorem constraint_atLoss (c : ConstraintId) : (s.atLoss l p).constraint c = s.constraint c := by
  obtain ⟨x, a, eq⟩ := State.claimOn_eq ((s.withLost l p).raiseFlag .lost) (s.point p).group .lost
  rw [atLoss_eq, eq]
  rfl

theorem constraint_lose_of_indexed {c : ConstraintId} {x : Constraint} {v : Int} (judging : s.judging = true)
    (indexed : c ∈ (s.point p).index) (held : s.constraint c = some x) (term : p ∈ x.terms.points)
    (value : s.constraintValue x.terms = some v) :
    (s.lose l p).constraint c = some { x with state := .blind, last := some v } := by
  have start := judged_atLoss s l p
  have at_ : (s.atLoss l p).constraint c = some x := (constraint_atLoss s l p c).trans held
  obtain ⟨n, eq | eq⟩ := lose_cases s l p
  · rw [eq]
    refine (constraint_jogNotice p _ _ c).trans ?_
    exact constraint_evaluateIndex_of_judged s l p start judging indexed at_ term value
  · rw [eq]
    exact constraint_evaluateIndex_of_judged s l p (start.trans (State.Judged.jogNotice _ _ _)) judging indexed
      ((constraint_jogNotice p _ _ c).trans at_) term value

theorem constraint_lose_of_other {c : ConstraintId} (other : s.judging = false ∨ c ∉ (s.point p).index) :
    (s.lose l p).constraint c = s.constraint c := by
  refine (lose_of_kept s l p (P := fun u => (s.withLost l p).Judged u ∧ u.constraint c = s.constraint c)
    (fun u h => ⟨h.1.trans (State.Judged.evaluateIndex u p), ?_⟩)
    (fun u h => ⟨h.1.trans (State.Judged.jogNotice u p _), (constraint_jogNotice p u _ c).trans h.2⟩)
    (fun u n h => ⟨h.1.trans (State.Judged.choices u n), h.2⟩) ⟨judged_atLoss s l p, constraint_atLoss s l p c⟩).2
  have index : (u.point p).index = (s.point p).index := by
    rw [h.1.index, point_withLost, if_pos rfl]
  rw [State.constraint_evaluateIndex, if_neg, h.2]
  rintro ⟨judging, indexed⟩
  rcases other with quiet | out
  · rw [h.1.judging, show (s.withLost l p).judging = s.judging from rfl, quiet] at judging
    cases judging
  · exact out (index ▸ indexed)

theorem accumulates_atLoss : s.Accumulates (s.atLoss l p) :=
  (State.Accumulates.of_groups (s := s) (t := s.withLost l p) rfl fun _ h => h).trans
    ((State.Accumulates.raiseFlag (s.withLost l p) .lost).trans
      (State.Accumulates.claimOn ((s.withLost l p).raiseFlag .lost) (s.point p).group .lost))

/-- A constraint of the index that enters BLIND sets BREACH and holds every group that a term names (R97, R98). -/
theorem blind_evaluateIndex {u : State} (judged : (s.withLost l p).Judged u) (accumulated : s.Accumulates u)
    {c : ConstraintId} {x : Constraint} {v : Int} (judging : s.judging = true) (indexed : c ∈ (s.point p).index)
    (held : u.constraint c = some x) (term : p ∈ x.terms.points) (value : s.constraintValue x.terms = some v)
    (enters : x.state ≠ .blind) : (u.evaluateIndex p).attention.isSet .breach = true
      ∧ ∀ q ∈ x.terms.points, ∀ g, (s.point q).group = some g →
        ((s.group g).state = .staging ∨ (s.group g).state = .gap ∨ (s.group g).state = .holding) →
        ((u.evaluateIndex p).group g).state = .holding ∧ ((u.evaluateIndex p).group g).hasCause .blind = true := by
  have index : (u.point p).index = (s.point p).index := by
    rw [judged.index, point_withLost, if_pos rfl]
  have groups (q : PointId) : (u.point q).group = (s.point q).group := by
    rw [judged.group_point, point_withLost]
    split
    next same => rw [same]
    next => rfl
  obtain ⟨breach, holds⟩ := State.evaluateIndex_enters_blind (s := u) (p := p) (judged.judging.trans judging)
    (index ▸ indexed) held (by rw [judged.constraintValue, constraintValue_withLost, value])
    (by rw [judged.anyTermLost, anyTermLost_withLost s l p term]) enters
  exact ⟨breach, fun q hq g member takes => holds q hq g (by rw [groups, member]) (accumulated.takes g takes)⟩

theorem blind_lose {c : ConstraintId} {x : Constraint} {v : Int} (judging : s.judging = true)
    (indexed : c ∈ (s.point p).index) (held : s.constraint c = some x) (term : p ∈ x.terms.points)
    (value : s.constraintValue x.terms = some v) (enters : x.state ≠ .blind) :
    (s.lose l p).attention.isSet .breach = true
      ∧ ∀ q ∈ x.terms.points, ∀ g, (s.point q).group = some g →
        ((s.group g).state = .staging ∨ (s.group g).state = .gap ∨ (s.group g).state = .holding) →
        ((s.lose l p).group g).state = .holding ∧ ((s.lose l p).group g).hasCause .blind = true := by
  have start := judged_atLoss s l p
  have takes := accumulates_atLoss s l p
  have at_ : (s.atLoss l p).constraint c = some x := (constraint_atLoss s l p c).trans held
  obtain ⟨n, eq | eq⟩ := lose_cases s l p
  · obtain ⟨breach, holds⟩ := blind_evaluateIndex s l p start takes judging indexed at_ term value enters
    have later := State.Accumulates.jogNotice ((s.atLoss l p).evaluateIndex p) p .lost
    rw [eq]
    refine ⟨later.flag _ breach, fun q hq g member moving => ?_⟩
    obtain ⟨holding, cause⟩ := holds q hq g member moving
    exact ⟨later.held g holding, later.cause g _ cause⟩
  · rw [eq]
    exact blind_evaluateIndex s l p (start.trans (State.Judged.jogNotice _ _ _))
      (takes.trans (State.Accumulates.jogNotice _ _ _)) judging indexed ((constraint_jogNotice p _ _ c).trans at_) term value
      enters

/-! ### The jog of the lost point (R150) -/

theorem jog_atLoss : (s.atLoss l p).jog = s.jog := (claimOn_leaves _ _ _).2.1

theorem jogNotice_of_idle {u : State} (idle : u.jog.active = none) (o : JogOutcome) : u.jogNotice p o = u := by
  rw [State.jogNotice, idle]

/-- The loss ends the jog of its point, with LOST or, where a constraint ended it first, with LIMIT. -/
theorem jog_lose {j : ActiveJog} (active : s.jog.active = some j) (at_ : j.point = p) :
    (s.lose l p).jog.active = none ∧ ((s.lose l p).jog.outcome = .lost ∨ (s.lose l p).jog.outcome = .limit) := by
  have start : (s.atLoss l p).jog.active = some j := (congrArg JogSlot.active (jog_atLoss s l p)).trans active
  have ends {u : State} (still : u.jog.active = some j) : (u.jogNotice p .lost).jog = ⟨none, .lost, some p⟩ := by
    rw [jogNotice_of_active still, if_pos at_, State.jog_endJog _ still, at_]
  obtain ⟨n, eq | eq⟩ := lose_cases s l p
  · have jog : (s.lose l p).jog = (((s.atLoss l p).evaluateIndex p).jogNotice p .lost).jog :=
      (congrArg State.jog eq).trans rfl
    rw [jog]
    rcases jogLimited_evaluateIndex (s.atLoss l p) p with same | ⟨idle, limit⟩
    · rw [ends ((congrArg JogSlot.active same).trans start)]
      exact ⟨rfl, .inl rfl⟩
    · rw [jogNotice_of_idle p idle]
      exact ⟨idle, .inr limit⟩
  · have jog : (s.lose l p).jog = (((s.atLoss l p).jogNotice p .lost).evaluateIndex p).jog :=
      (congrArg State.jog eq).trans rfl
    rw [jog]
    rcases jogLimited_evaluateIndex ((s.atLoss l p).jogNotice p .lost) p with same | ⟨idle, limit⟩
    · rw [same, ends start]
      exact ⟨rfl, .inl rfl⟩
    · exact ⟨idle, .inr limit⟩

end loss

/-- Settles O51: the count by the point's health, and the loss as judgements of the records of the lost point, in one of
two orders. -/
theorem missedRepliesLoseThePoint : Obligations.MissedRepliesLoseThePoint := by
  have ended {s : State} {l : LinkId} {p : PointId} {n : NodeAddr} {permit : Permit} {target : Option Nat} {stop d : Bool}
      (hw : s.Working) (slot : (s.engine l).exchange = some (.poll p n permit target stop d)) :
      exec (.missedReply l) s = .next (if d then s.endSlot l else ((s.endSlot l).missReply l p).settle) :=
    congrArg Host.Outcome.next ((event_working s hw _).trans (pollUnanswered_of_poll slot))
  refine ⟨fun s l p n permit target stop hw => ⟨fun slot => ended hw slot, fun slot =>
      ⟨fun live few => ?few, fun live many => ?third, fun lost => ?lost⟩⟩, endSlot_eq, setGoodRun_eq, fun s l p => ?lose⟩
  case few => exact (ended hw slot).trans (congrArg (fun t : State => Host.Outcome.next t.settle) (missReply_live (s := s.endSlot l) live few rfl))
  case third => exact (ended hw slot).trans (congrArg (fun t : State => Host.Outcome.next t.settle) (missReply_third (s := s.endSlot l) live many))
  case lost => exact (ended hw slot).trans (congrArg (fun t : State => Host.Outcome.next t.settle) (missReply_lost (s := s.endSlot l) lost))
  case lose =>
    have kept := accumulates_lose s l p
    refine ⟨judged_lose s l p, lost_lose s l p, kept.flag _ ?flag, fun g member => ⟨fun moving => ⟨?held, fun staging => ?_,
        fun gap => ?_⟩, fun takes => ?cause⟩, fun j => jog_lose s l p, s.lose_order l p,
      fun c x v plan indexed held term value => ⟨constraint_lose_of_indexed s l p (judging_iff.2 plan) indexed held term value,
        blind_lose s l p (judging_iff.2 plan) indexed held term value⟩,
      fun c other => constraint_lose_of_other s l p (other.imp_left fun plan => ?_)⟩
    case flag => exact (State.Accumulates.claimOn _ _ _).flag _ (State.isSet_raiseFlag _ _)
    case held => exact kept.flag _ ((isSet_claimOn_held _ _ _ g).2 (.inr ⟨member, moving⟩))
    case cause =>
      obtain ⟨holding, cause⟩ := s.held_claim g .lost takes
      rw [← group_atLoss s l p member] at holding cause
      exact ⟨kept.held g holding, kept.cause g _ cause,
        fun c had => kept.cause g c ((accumulates_atLoss s l p).cause g c had)⟩
    · refine (heldAt_lose s l p ?_).2
      rw [HeldAt, group_atLoss s l p member]
      exact heldAt_of_moving .lost (.inl ⟨staging, rfl⟩)
    · refine (heldAt_lose s l p ?_).2
      rw [HeldAt, group_atLoss s l p member]
      exact heldAt_of_moving .lost (.inr ⟨gap, rfl⟩)
    · rw [← Bool.not_eq_true, judging_iff, not_or]
      exact plan

end Sys2Proof.Machine
end

section

/-! How a probe ends (R26, R27, R83 to R86). -/
namespace Sys2Proof.Machine

variable {s : State}

/-! ### The engine whose probe has ended (R75, R76) -/

section without

variable (e : Engine) (p : PointId)

theorem slotOver_leaves : e.slotOver.roster = e.roster ∧ e.slotOver.queue = e.queue ∧ e.slotOver.attempts = e.attempts
    ∧ e.slotOver.link = e.link := by
  obtain ⟨c, eq⟩ := Engine.rested_eq { e with exchange := none, slotLeft := none }
  unfold Engine.slotOver
  rw [eq]
  exact ⟨rfl, rfl, rfl, rfl⟩

theorem without_leaves : ((e.queue.head? = some p) → (e.without p).attempts = 0) ∧ (e.without p).link = e.link := by
  obtain ⟨c, eq⟩ := Engine.rested_eq { e with
    roster := e.roster.filter fun r => r.point != p, queue := e.queue.filter fun q => q != p,
    attempts := if e.queue.head? = some p then 0 else e.attempts, exchange := e.exchange.map (Exchange.discardFor p) }
  unfold Engine.without
  rw [eq]
  exact ⟨fun head => if_pos head, rfl⟩

/-- The engine whose slot has ended, without a point (R75, R76). -/
theorem slotOver_without : (e.slotOver.without p).queue = e.queue.filter (fun q => q != p)
    ∧ (e.queue.head? = some p → (e.slotOver.without p).attempts = 0)
    ∧ (e.slotOver.without p).roster = e.roster.filter (fun r => r.point != p)
    ∧ (e.slotOver.without p).exchange = none ∧ (e.slotOver.without p).link = e.link := by
  obtain ⟨roster, queue, attempts, link⟩ := slotOver_leaves e
  obtain ⟨reset, same⟩ := without_leaves e.slotOver p
  refine ⟨?_, fun head => reset (by rw [queue, head]), ?_, ?_, same.trans link⟩
  · rw [Engine.queue_without, queue]
  · rw [Engine.roster_without, roster]
  · rw [Engine.exchange_without, Engine.exchange_slotOver]
    rfl

end without

/-! ### Answers in a probe slot (R76, R83, R86) -/

theorem goodAnnounce_iff (n : NodeAddr) (f : AnnounceFields) :
    goodAnnounce n f = true ↔ f.node = n.val ∧ f.height ≤ 30000 ∧ 100 ≤ f.capacity ∧ 500 ≤ f.stroke := by
  rw [goodAnnounce, Bool.and_eq_true, Bool.and_eq_true, Bool.and_eq_true, beq_iff_eq, decide_eq_true_eq,
    decide_eq_true_eq, decide_eq_true_eq, and_assoc, and_assoc]
  rfl

section probe

variable {l : LinkId} {p : PointId} {n : NodeAddr} {d : Bool}

theorem takeAnnounce_good {f : AnnounceFields} (slot : (s.engine l).exchange = some (.probe p n d))
    (good : goodAnnounce n f = true) :
    s.takeAnnounce l f = if d then s.endSlot l else ((s.endSlot l).bindAnnounced l p n f).settle := by
  unfold State.takeAnnounce
  rw [slot]
  dsimp only
  rw [good]
  exact if_neg nofun

theorem takeAnnounce_bad {f : AnnounceFields} (slot : (s.engine l).exchange = some (.probe p n d))
    (bad : goodAnnounce n f = false) : s.takeAnnounce l f = s.probeUnanswered l := by
  unfold State.takeAnnounce
  rw [slot]
  dsimp only
  rw [bad]
  exact if_pos rfl

theorem takeReply_of_probe (slot : (s.engine l).exchange = some (.probe p n d)) (f : ReplyFields) :
    s.takeReply l f = s.probeUnanswered l := by
  unfold State.takeReply
  rw [slot]

theorem probeUnanswered_of_probe (slot : (s.engine l).exchange = some (.probe p n d)) :
    s.probeUnanswered l = if d then s.endSlot l
      else if 3 ≤ (s.engine l).attempts then ((s.endSlot l).noAnswer l p).settle else s.endSlot l := by
  obtain ⟨_, _, attempts, _⟩ := slotOver_leaves (s.engine l)
  have counted : ((s.endSlot l).engine l).attempts = (s.engine l).attempts := by
    rw [State.endSlot, State.engine_setEngine_self, attempts]
  unfold State.probeUnanswered
  rw [slot]
  dsimp only
  rw [counted]
  rfl

end probe

/-! ### A probe's point and its engine written together (R26, R85) -/

/-- The end of a probe: the slot over, the point written, its engine written, BIND set (R26, R85). -/
def State.probeEnds (s : State) (l : LinkId) (p : PointId) (x : Point) (e : Engine) : State :=
  ((s.setPoint p x).setEngine l e).raiseFlag .bind

theorem setEngine_setEngine (s : State) (l : LinkId) (x y : Engine) : (s.setEngine l x).setEngine l y = s.setEngine l y :=
  congrArg (fun t => { s with links := t }) (Table.put_put s.links l x y)

/-- A bind (R26, R86). -/
theorem bindAnnounced_eq (l : LinkId) (p : PointId) (n : NodeAddr) (f : AnnounceFields) :
    (s.endSlot l).bindAnnounced l p n f = s.probeEnds l p ((s.point p).bound f)
      { (s.engine l).slotOver.without p with roster := rosterInsert ⟨n, p, 0⟩ ((s.engine l).slotOver.without p).roster } := by
  have engine : ((s.endSlot l).setPoint p ((s.point p).bound f)).engine l = (s.engine l).slotOver :=
    s.engine_setEngine_self l _
  show State.raiseFlag (State.setEngine _ l { (((s.endSlot l).setPoint p ((s.point p).bound f)).engine l).without p with
    roster := rosterInsert ⟨n, p, 0⟩
      ((((s.endSlot l).setPoint p ((s.point p).bound f)).engine l).without p).roster }) .bind = _
  rw [engine]
  exact congrArg (fun t => State.raiseFlag t .bind) (setEngine_setEngine (s.setPoint p ((s.point p).bound f)) l _ _)

/-- A probe that no attempt answered (R27, R85). -/
theorem noAnswer_eq (l : LinkId) (p : PointId) : (s.endSlot l).noAnswer l p =
    s.probeEnds l p { s.point p with bindOutcome := .noAnswer } ((s.engine l).slotOver.without p) := by
  have engine : ((s.endSlot l).setPoint p { s.point p with bindOutcome := .noAnswer }).engine l = (s.engine l).slotOver :=
    s.engine_setEngine_self l _
  show State.raiseFlag (State.setEngine _ l
    ((((s.endSlot l).setPoint p { s.point p with bindOutcome := .noAnswer }).engine l).without p)) .bind = _
  rw [engine]
  exact congrArg (fun t => State.raiseFlag t .bind)
    (setEngine_setEngine (s.setPoint p { s.point p with bindOutcome := .noAnswer }) l _ _)

section ends

variable (s) (l : LinkId) (p : PointId) (x : Point) (e : Engine)

theorem point_probeEnds_settle_self :
    ∃ m, (s.probeEnds l p x e).settle.point p = { x with permit := m } := by
  have written : (s.probeEnds l p x e).point p = x := s.point_setPoint_self p x
  exact ⟨(s.probeEnds l p x e).permitOf p x, by rw [State.point_settle, written]⟩

theorem point_probeEnds_settle_of_ne {q : PointId} (other : q ≠ p) :
    ∃ m, (s.probeEnds l p x e).settle.point q = { s.point q with permit := m } := by
  have kept : (s.probeEnds l p x e).point q = s.point q := s.point_setPoint_of_ne other.symm x
  exact ⟨(s.probeEnds l p x e).permitOf q (s.point q), by rw [State.point_settle, kept]⟩

theorem engine_probeEnds_settle (m : LinkId) :
    (s.probeEnds l p x e).settle.engine m = if l = m then e else s.engine m := Table.at_put s.links l m e

theorem isSet_bind_probeEnds_settle : (s.probeEnds l p x e).settle.attention.isSet .bind = true :=
  State.isSet_raiseFlag _ _

/-- The end of a probe writes points, engines, lines and the attention unit alone. -/
theorem probeEnds_settle_frame : (s.probeEnds l p x e).settle = { s with
    points := (s.probeEnds l p x e).settle.points, links := (s.probeEnds l p x e).settle.links
    lines := (s.probeEnds l p x e).settle.lines, attention := (s.probeEnds l p x e).settle.attention } := rfl

end ends

/-- Settles O52: an answer or its absence by the slot in flight, and the end of the probe record by record. -/
theorem probesEnd : Obligations.ProbesEnd := by
  refine ⟨fun s l p n f hw => ⟨fun node height capacity stroke => ⟨fun slot => ?bound, fun slot => ?discarded⟩,
      fun d slot => ⟨fun bad => ?bad, fun r => ?reply⟩⟩,
    fun s l p n hw => ⟨fun slot => ?unheard, fun slot => ⟨fun few => ?again, fun spent => ?noAnswer⟩⟩⟩
  case bound =>
    have good := (goodAnnounce_iff n f).2 ⟨node, height, capacity, stroke⟩
    obtain ⟨queue, attempts, roster, exchange, link⟩ := slotOver_without (s.engine l) p
    refine ⟨_, congrArg Host.Outcome.next ((event_working s hw _).trans ((takeAnnounce_good slot good).trans
      (if_neg nofun))), rfl, ?_⟩
    rw [bindAnnounced_eq]
    have engine := (engine_probeEnds_settle s l p ((s.point p).bound f) { (s.engine l).slotOver.without p with
      roster := rosterInsert ⟨n, p, 0⟩ ((s.engine l).slotOver.without p).roster } l).trans (if_pos rfl)
    rw [engine]
    refine ⟨point_probeEnds_settle_self s l p _ _, queue, attempts, fun r => ?_, exchange, link,
      isSet_bind_probeEnds_settle s l p _ _, fun q other => point_probeEnds_settle_of_ne s l p _ _ other,
      fun m other => (engine_probeEnds_settle s l p _ _ m).trans (if_neg other.symm), probeEnds_settle_frame s l p _ _⟩
    rw [mem_rosterInsert, roster, List.mem_filter, bne_iff_ne]
  case discarded =>
    have good := (goodAnnounce_iff n f).2 ⟨node, height, capacity, stroke⟩
    exact congrArg Host.Outcome.next ((event_working s hw _).trans (takeAnnounce_good slot good))
  case bad =>
    refine congrArg Host.Outcome.next ((event_working s hw _).trans ((takeAnnounce_bad slot ?_).trans
      (event_working s hw fun t => t.probeUnanswered l).symm))
    rw [← Bool.not_eq_true, goodAnnounce_iff]
    rintro ⟨node, height, capacity, stroke⟩
    rcases bad with ne | high | weak | short
    · exact ne node
    · exact Nat.not_lt.2 height high
    · exact Nat.not_lt.2 capacity weak
    · exact Nat.not_lt.2 stroke short
  case reply =>
    exact congrArg Host.Outcome.next ((event_working s hw _).trans ((takeReply_of_probe slot r).trans
      (event_working s hw fun t => t.probeUnanswered l).symm))
  case unheard =>
    exact congrArg Host.Outcome.next ((event_working s hw _).trans (probeUnanswered_of_probe slot))
  case again =>
    exact congrArg Host.Outcome.next ((event_working s hw _).trans ((probeUnanswered_of_probe slot).trans
      ((if_neg nofun).trans (if_neg (Nat.not_le.2 few)))))
  case noAnswer =>
    obtain ⟨queue, attempts, roster, exchange, link⟩ := slotOver_without (s.engine l) p
    refine ⟨_, congrArg Host.Outcome.next ((event_working s hw _).trans ((probeUnanswered_of_probe slot).trans
      ((if_neg nofun).trans (if_pos spent)))), rfl, ?_⟩
    rw [noAnswer_eq]
    have engine := (engine_probeEnds_settle s l p { s.point p with bindOutcome := .noAnswer }
      ((s.engine l).slotOver.without p) l).trans (if_pos rfl)
    rw [engine]
    exact ⟨point_probeEnds_settle_self s l p _ _, queue, attempts, roster, exchange, link,
      isSet_bind_probeEnds_settle s l p _ _, fun q other => point_probeEnds_settle_of_ne s l p _ _ other,
      fun m other => (engine_probeEnds_settle s l p _ _ m).trans (if_neg other.symm), probeEnds_settle_frame s l p _ _⟩

end Sys2Proof.Machine
end

section

/-! LINK-RESET (R89, R90): its checks, the points, the engine and the plan it writes, and the skew entries (R107). -/
namespace Sys2Proof.Machine

variable {s : State}

/-! ### The checks (R89) -/

theorem carriesPlanned_iff (l : LinkId) :
    s.carriesPlanned l = true ↔ ∃ p, (s.point p).onLink l = true ∧ (s.point p).life = .planned := by
  simp only [State.carriesPlanned, List.any_eq_true, mem_ids, true_and, Bool.and_eq_true, beq_iff_eq]

theorem linkReset_eq (l : LinkId) : linkReset l.val s = checked s
    [refusesIf (s.plan.state = .compiling ∨ s.plan.state = .inService) .refusedState,
     refusesFor (if ∃ p, (s.point p).onLink l = true ∧ (s.point p).life = .planned then s.groupInUse else none)
       .refusedState 0x04,
     refusesIf ((s.engine l).link = .resetting) .refusedState]
    (accepted (s.resetLink l).settle) := by
  have closed : (s.plan.state == .compiling || s.plan.state == .inService) = true ↔
      s.plan.state = .compiling ∨ s.plan.state = .inService := by
    rw [Bool.or_eq_true, beq_iff_eq, beq_iff_eq]
  have used : (if ∃ p, (s.point p).onLink l = true ∧ (s.point p).life = .planned then s.groupInUse else none) =
      if s.carriesPlanned l then s.busyGroup else none := if_congr (carriesPlanned_iff l).symm rfl rfl
  rw [linkReset, fin?_val, used]
  dsimp only
  split
  next shut => exact (checked_if_pos (closed.1 shut)).symm
  next open_ =>
    rw [checked_if_neg fun h => open_ (closed.2 h)]
    split
    next g found => exact (checked_for_some found).symm
    next free =>
      rw [checked_for_none free]
      split
      next resetting => exact (checked_if_pos resetting).symm
      next going => exact (checked_if_neg (rest := []) going).symm

/-! ### The judging of several skew entries (R107) -/

theorem foldl_judgeSkewOf_eq : ∀ (ps : List PointId) (t : State),
    ∃ k g a, ps.foldl State.judgeSkewOf t = { t with skew := k, groups := g, attention := a }
  | [], t => ⟨t.skew, t.groups, t.attention, rfl⟩
  | p :: ps, t => by
    obtain ⟨k, g, a, once⟩ := State.judgeSkewOf_eq t p
    obtain ⟨k', g', a', rest⟩ := foldl_judgeSkewOf_eq ps (t.judgeSkewOf p)
    exact ⟨k', g', a', by rw [List.foldl_cons, rest, once]⟩

theorem judged_foldl_judgeSkewOf (ps : List PointId) (t : State) : t.Judged (ps.foldl State.judgeSkewOf t) :=
  State.Judged.foldl _ State.Judged.judgeSkewOf ps t

/-! ### What is written before the skew entries (R53, R90) -/

/-- The points unbound and made PENDING, and the engine reset (R90). -/
def State.cleared (s : State) (l : LinkId) : State :=
  (s.mapPoints fun _ x => if x.onLink l then x.linkReset else x).setEngine l (s.engine l).reset

/-- The same with the plan's fall where a PLANNED point was unbound (R53, R90). -/
def State.unlinked (s : State) (l : LinkId) : State :=
  if s.carriesPlanned l then (s.cleared l).planTo .drafted else s.cleared l

/-- The points that a LINK-RESET unbinds (R31). -/
def State.unboundBy (s : State) (l : LinkId) : List PointId :=
  (ids 48).filter fun p => (s.point p).onLink l && (s.point p).isBound

theorem resetLink_eq_foldl (s : State) (l : LinkId) :
    s.resetLink l = (s.unboundBy l).foldl State.judgeSkewOf (s.unlinked l) := rfl

theorem mem_unboundBy {l : LinkId} {p : PointId} : p ∈ s.unboundBy l ↔
    (s.point p).onLink l = true ∧ ((s.point p).life = .bound ∨ (s.point p).life = .planned) := by
  rw [State.unboundBy, mem_filter_ids, Bool.and_eq_true, Point.isBound, Bool.or_eq_true, beq_iff_eq, beq_iff_eq]

/-! #### Points -/

theorem fall_unbind (x : Point) : x.unbind.fall = x.unbind := rfl

theorem linkReset_of_bound {x : Point} (bound : x.life = .bound ∨ x.life = .planned) : x.linkReset = x.unbind := by
  refine if_pos ?_
  rw [Point.isBound, Bool.or_eq_true, beq_iff_eq, beq_iff_eq]
  exact bound

theorem linkReset_of_draft {x : Point} (draft : x.life = .draft) : x.linkReset = { x with bindOutcome := .pending } := by
  refine if_neg ?_
  rw [Point.isBound, draft]
  nofun

theorem point_cleared (l : LinkId) (p : PointId) :
    (s.cleared l).point p = if (s.point p).onLink l then (s.point p).linkReset else s.point p :=
  s.point_mapPoints _ p

section unlinked

variable {l : LinkId}

theorem unlinked_of_planned (planned : ∃ p, (s.point p).onLink l = true ∧ (s.point p).life = .planned)
    (compiled : s.plan.state = .compiled) (p : PointId) : (s.unlinked l).point p = ((s.cleared l).point p).fall := by
  rw [State.unlinked, if_pos ((carriesPlanned_iff l).2 planned)]
  exact State.point_planTo_of_compiled (s.cleared l) compiled _ p

theorem unlinked_of_unplanned (planned : ¬∃ p, (s.point p).onLink l = true ∧ (s.point p).life = .planned) :
    s.unlinked l = s.cleared l := if_neg fun h => planned ((carriesPlanned_iff l).1 h)

/-- A point of the records written is the cleared one, or that after the plan's fall. -/
theorem point_unlinked (p : PointId) : (s.unlinked l).point p = (s.cleared l).point p
    ∨ (s.unlinked l).point p = ((s.cleared l).point p).fall := by
  rw [State.unlinked]
  split
  · by_cases compiled : s.plan.state = .compiled
    · exact .inr (State.point_planTo_of_compiled (s.cleared l) compiled _ p)
    · rw [State.planTo_of_not_compiled (s.cleared l) compiled]
      exact .inl rfl
  · exact .inl rfl

theorem point_unlinked_of_bound {p : PointId} (on : (s.point p).onLink l = true)
    (bound : (s.point p).life = .bound ∨ (s.point p).life = .planned) : (s.unlinked l).point p = (s.point p).unbind := by
  have cleared : (s.cleared l).point p = (s.point p).unbind := by
    rw [point_cleared, if_pos on, linkReset_of_bound bound]
  rcases point_unlinked (s := s) (l := l) p with eq | eq
  · rw [eq, cleared]
  · rw [eq, cleared, fall_unbind]

/-- Every point of the link is DRAFT and PENDING (R90). -/
theorem point_unlinked_of_on {p : PointId} (on : (s.point p).onLink l = true) :
    ((s.unlinked l).point p).life = .draft ∧ ((s.unlinked l).point p).bindOutcome = .pending := by
  cases life : (s.point p).life with
  | vacant =>
    rw [Point.onLink, life] at on
    cases on
  | draft =>
    have cleared : (s.cleared l).point p = { s.point p with bindOutcome := .pending } := by
      rw [point_cleared, if_pos on, linkReset_of_draft life]
    rcases point_unlinked (s := s) (l := l) p with eq | eq
    · rw [eq, cleared]
      exact ⟨life, rfl⟩
    · rw [eq, cleared, Point.fall]
      dsimp only
      rw [life]
      exact ⟨rfl, rfl⟩
  | bound =>
    rw [point_unlinked_of_bound on (.inl life)]
    exact ⟨rfl, rfl⟩
  | planned =>
    rw [point_unlinked_of_bound on (.inr life)]
    exact ⟨rfl, rfl⟩

theorem seat_unlinked (p : PointId) : ((s.unlinked l).point p).seat = (s.point p).seat := by
  have cleared : ((s.cleared l).point p).seat = (s.point p).seat := by
    rw [point_cleared]
    split
    · unfold Point.linkReset
      split <;> rfl
    · rfl
  rcases point_unlinked (s := s) (l := l) p with eq | eq
  · rw [eq, cleared]
  · rw [eq]
    exact cleared

/-! #### The other records -/

theorem unlinked_frame (s : State) (l : LinkId) : s.unlinked l = { s with
    points := (s.unlinked l).points, links := (s.unlinked l).links, plan := (s.unlinked l).plan
    constraints := (s.unlinked l).constraints } := by
  unfold State.unlinked
  split
  · rw [State.planTo_eq]
    rfl
  · rfl

theorem engine_unlinked (m : LinkId) : (s.unlinked l).engine m = if l = m then (s.engine l).reset else s.engine m := by
  have cleared : (s.cleared l).engine m = if l = m then (s.engine l).reset else s.engine m := Table.at_put s.links l m _
  rw [State.unlinked]
  split
  · rw [State.planTo_eq]
    exact cleared
  · exact cleared

theorem reset_eq (e : Engine) : e.reset = { e with
    link := .resetting, roster := [], queue := [], attempts := 0, cycle := none
    exchange := e.exchange.map Exchange.discard
    breakLeft := if e.exchange = none then some 1000 else none } := by
  unfold Engine.reset
  rw [if_congr Option.isNone_iff_eq_none rfl rfl]
  rfl

end unlinked

/-! ### The skew entries (R107) -/

section skew

variable {l : LinkId} (seats : s.SeatsMatch)
include seats

/-- Where seats match, the entries of the bodies that lose a corner become absent, and nothing else is judged (R107). -/
theorem resetLink_of_seats : ∃ k : Table Bool 12, s.resetLink l = { s.unlinked l with skew := k }
    ∧ ∀ b, k.at b = if ∃ p ∈ s.unboundBy l, (s.point p).seat.any (fun w => w.body == b) = true then false else s.skew.at b := by
  have bodies : (s.unlinked l).body = s.body := by
    rw [unlinked_frame]
    rfl
  have skew : (s.unlinked l).skew = s.skew := by rw [unlinked_frame]
  obtain ⟨k, eq, entries⟩ := State.foldl_judgeSkewOf_unloaded (s.unboundBy l) (s.unlinked l)
    (fun p hp => by
      obtain ⟨on, bound⟩ := mem_unboundBy.1 hp
      rw [point_unlinked_of_bound on bound]
      rfl)
    (fun p _ w seated => by
      rw [seat_unlinked] at seated
      rw [bodies]
      exact seats.2.1 p w seated)
  refine ⟨k, eq, fun b => ?_⟩
  rw [entries, skew]
  simp only [seat_unlinked]

theorem skew_resetLink_of_unbound {b : BodyId} {x : Body} (held : s.body b = some x) {p : PointId} (corner : p ∈ x.corners)
    (unbound : p ∈ s.unboundBy l) : (s.resetLink l).skew.at b = false := by
  obtain ⟨k, eq, entries⟩ := resetLink_of_seats (l := l) seats
  obtain ⟨c, at_⟩ := (State.mem_corners_iff x p).1 corner
  have seat : (s.point p).seat = some ⟨b, c⟩ := at_ ▸ seats.1 b x c held
  rw [eq]
  refine (entries b).trans (if_pos ⟨p, unbound, ?_⟩)
  rw [seat, Option.any_some, beq_self_eq_true]

theorem skew_resetLink_of_bound {b : BodyId} (whole : ∀ x, s.body b = some x → ∀ p ∈ x.corners, p ∉ s.unboundBy l) :
    (s.resetLink l).skew.at b = s.skew.at b := by
  obtain ⟨k, eq, entries⟩ := resetLink_of_seats (l := l) seats
  rw [eq]
  refine (entries b).trans (if_neg ?_)
  rintro ⟨p, unbound, named⟩
  obtain ⟨w, seated, body⟩ := Option.any_eq_true _ _ |>.1 named
  obtain ⟨x, held, corner⟩ := seats.2.1 p w seated
  rw [beq_iff_eq] at body
  exact whole x (body ▸ held) p ((State.mem_corners_iff x p).2 ⟨w.corner, corner⟩) unbound

theorem resetLink_frame_of_seats : s.resetLink l = { s with
    points := (s.resetLink l).points, links := (s.resetLink l).links, plan := (s.resetLink l).plan
    constraints := (s.resetLink l).constraints, skew := (s.resetLink l).skew } := by
  obtain ⟨k, eq, _⟩ := resetLink_of_seats (l := l) seats
  rw [eq, unlinked_frame]

end skew

/-- Settles O53: the request by its checks, the records written before the skew entries are judged, and those entries. -/
theorem linkResetResult : Obligations.LinkResetResult := by
  refine ⟨fun s l hw open_ free going => ?accepted,
    fun s n hw out => exec_of_act (r := refuse s .refusedRange) hw rfl (by rw [linkReset, fin?_of_not_lt (by omega)]),
    fun s l hw => refusesInOrder_of_checked hw rfl (linkReset_eq l)⟩
  obtain ⟨k, g, a, judged⟩ := foldl_judgeSkewOf_eq (s.unboundBy l) (s.unlinked l)
  rw [← resetLink_eq_foldl] at judged
  have point (p : PointId) : (s.resetLink l).point p = (s.unlinked l).point p := by rw [judged]; rfl
  have engine (m : LinkId) : (s.resetLink l).engine m = (s.unlinked l).engine m := by rw [judged]; rfl
  refine ⟨?exec, ?engine, fun m ne => ?engines, fun p on => ?on, fun p on bound => ?unbound, fun planned compiled => ?falls,
    fun unplanned => ?stands, ⟨s.unlinked l, unlinked_frame s l, judged_foldl_judgeSkewOf _ _⟩, fun seats =>
      ⟨fun b x held unbound => ?entry, fun b whole => skew_resetLink_of_bound seats fun x held p corner unbound =>
        whole x held p corner (mem_unboundBy.1 unbound), resetLink_frame_of_seats seats⟩⟩
  case exec =>
    refine exec_of_checked hw rfl (linkReset_eq l) (passed_if.2 ⟨fun h => h.elim open_.2 open_.1, passed_for.2
      ⟨?_, passed_if.2 ⟨going, passed_nil⟩⟩⟩)
    split
    next planned => exact groupInUse_eq_none (free planned)
    next => rfl
  case engine => rw [engine, engine_unlinked, if_pos rfl, reset_eq]
  case engines => rw [engine, engine_unlinked, if_neg ne.symm]
  case on =>
    rw [point]
    exact point_unlinked_of_on on
  case unbound =>
    rw [point, point_unlinked_of_bound on bound]
    rfl
  case falls =>
    have plan : (s.resetLink l).plan = (s.unlinked l).plan := by rw [judged]
    have records (c : ConstraintId) : (s.resetLink l).constraint c = (s.unlinked l).constraint c := by rw [judged]; rfl
    have fallen : s.unlinked l = (s.cleared l).planTo .drafted := if_pos ((carriesPlanned_iff l).2 planned)
    refine ⟨?_, fun p on draft => ?_, fun p off => ?_, fun c => ?_⟩
    · rw [plan, fallen, plan_planTo]
      rfl
    · rw [point, unlinked_of_planned planned compiled, point_cleared, if_pos on, linkReset_of_draft draft, Point.fall]
      dsimp only
      rw [draft]
      rfl
    · rw [point, unlinked_of_planned planned compiled, point_cleared, if_neg (Bool.eq_false_iff.1 off)]
      rfl
    · rw [records, fallen]
      exact State.constraint_planTo_of_compiled (s.cleared l) compiled _ c
  case stands =>
    have kept := unlinked_of_unplanned unplanned
    refine ⟨?_, ?_, fun p on draft => ?_, fun p off => ?_⟩
    · rw [judged, kept]
      rfl
    · rw [judged, kept]
      rfl
    · rw [point, kept, point_cleared, if_pos on, linkReset_of_draft draft]
    · rw [point, kept, point_cleared, if_neg (Bool.eq_false_iff.1 off)]
  case entry =>
    obtain ⟨p, corner, unbound⟩ := unbound
    exact skew_resetLink_of_unbound seats held corner (mem_unboundBy.2 unbound)

end Sys2Proof.Machine
end

section

/-! The check and build phases of a compilation (R58 to R62). -/
namespace Sys2Proof.Machine

variable {s : State}

/-! ### The order of the bodies (R2) -/

theorem position_of_bodyAt {n : Nat} {b : BodyId} {x : Body} (h : s.bodyAt n = some (b, x)) : x.position.val = n := by
  obtain ⟨c, _, found⟩ := List.exists_of_findSome?_eq_some h
  split at found
  next y held =>
    split at found
    next at_ =>
      cases found
      exact at_
    · cases found
  next => cases found

theorem ascending_bodiesInOrder (s : State) : s.bodiesInOrder.Pairwise fun y z => y.2.position < z.2.position := by
  refine List.Pairwise.filterMap _ (fun m n lt y at_m z at_n => ?_) (List.pairwise_lt_finRange 12)
  have below : y.2.position.val = m.val := position_of_bodyAt at_m
  have above : z.2.position.val = n.val := position_of_bodyAt at_n
  exact Fin.lt_def.2 (below ▸ above ▸ lt)

theorem leadingNeighbour_eq_some_iff
    (distinct : ∀ b c x y, s.body b = some x → s.body c = some y → x.position = y.position → b = c) (x : Body)
    (c : BodyId) (y : Body) : s.leadingNeighbour x = some (c, y) ↔
      s.body c = some y ∧ y.position.val + 1 = x.position.val := by
  unfold State.leadingNeighbour
  split
  next first =>
    refine ⟨nofun, fun h => ?_⟩
    omega
  next later =>
    rw [State.bodyAt_eq_some_iff s distinct]
    exact and_congr_right fun _ => by omega

/-! ### The check phase (R58 to R60) -/

section checkBody

variable {b : BodyId} {x : Body}

theorem checkBody_of_unbound {p : PointId} (found : (x.corners.find? fun q => (s.point q).life != .bound) = some p) :
    s.checkBody b x = some (.notBound, .point p) := by
  rw [State.checkBody, found]

/-- The check of a body whose corners are BOUND is that of its leading joint (R59). -/
theorem checkBody_of_bound (bound : ∀ p ∈ x.corners, (s.point p).life = .bound) : s.checkBody b x =
    if x.joint = .closed ∧ s.leadingNeighbour x = none then
      if s.bodiesInOrder.any fun y => y.2.position < x.position then some (.positionGap, .body b)
      else some (.jointOrphan, .body b)
    else none := by
  have none : (x.corners.find? fun q => (s.point q).life != .bound) = none := by
    refine List.find?_eq_none.2 fun p hp => ?_
    rw [bound p hp]
    nofun
  rw [State.checkBody, none]

end checkBody

theorem checkCustom_of_outside {c : ConstraintId} {x : Constraint} (held : s.constraint c = some x)
    (outside : x.kind = .custom ∧ ∃ p ∈ x.terms.points, (s.point p).seat = none) :
    s.checkCustom c = some (.termOutside, .constraint c) := by
  rw [State.checkCustom, held]
  refine if_pos ⟨outside.1, List.any_eq_true.2 ?_⟩
  obtain ⟨p, term, unseated⟩ := outside.2
  exact ⟨p, term, by rw [unseated]; rfl⟩

theorem findSome?_ids_eq_some {n : Nat} {α : Type} {f : Fin n → Option α} {i : Fin n} {a : α} (found : f i = some a)
    (below : ∀ j, j < i → f j = none) : (ids n).findSome? f = some a := by
  obtain ⟨before, after, split⟩ := List.append_of_mem (mem_ids i)
  have sorted := List.pairwise_lt_finRange n
  rw [show List.finRange n = before ++ i :: after from split] at sorted
  exact List.findSome?_eq_some_iff.2
    ⟨before, i, after, split, found, fun j hj => below j ((List.pairwise_append.1 sorted).2.2 j hj i List.mem_cons_self)⟩

/-- Where every body passes, the lowest CUSTOM record with a term in no body decides (R60). -/
theorem build_of_outside {c : ConstraintId} {x : Constraint} (bodies : ∀ z ∈ s.bodiesInOrder, s.checkBody z.1 z.2 = none)
    (below : ∀ d r, d < c → s.constraint d = some r →
      ¬(r.kind = .custom ∧ ∃ p ∈ r.terms.points, (s.point p).seat = none)) (held : s.constraint c = some x)
    (outside : x.kind = .custom ∧ ∃ p ∈ x.terms.points, (s.point p).seat = none) (jointLimit warn : Nat) :
    s.build jointLimit warn = .error (.termOutside, .constraint c) := by
  have first : (ids 128).findSome? s.checkCustom = some (.termOutside, .constraint c) := by
    refine findSome?_ids_eq_some (checkCustom_of_outside held outside) fun d lt => ?_
    rw [State.checkCustom_eq_none_iff]
    exact fun r there custom p term unseated => below d r lt there ⟨custom, p, term, unseated⟩
  have none : (s.bodiesInOrder.findSome? fun y => s.checkBody y.1 y.2) = none := List.findSome?_eq_none_iff.2 bodies
  rw [State.build, State.checkPhase, none, Option.orElse_none, first]

/-! ### The records created (R61) -/

/-- Records created one after another at the lowest EMPTY id, each with its body (R61). -/
def State.createList (s : State) : List (BodyId × Constraint) → Except Failure State
  | [] => .ok s
  | q :: rest =>
    match s.lowestEmpty with
    | none => .error (.tableFull, .body q.1)
    | some i => (s.setConstraint i (some q.2)).createList rest

theorem createAll_eq_createList (b : BodyId) : ∀ (l : List Constraint) (s : State),
    s.createAll b l = s.createList (l.map fun x => (b, x))
  | [], _ => rfl
  | x :: l, s => by
    rw [State.createAll, List.map_cons, State.createList]
    cases s.lowestEmpty with
    | none => rfl
    | some i => exact createAll_eq_createList b l _

theorem createList_append (l m : List (BodyId × Constraint)) : ∀ s : State,
    s.createList (l ++ m) = match s.createList l with
      | .error f => .error f
      | .ok t => t.createList m := by
  induction l with
  | nil => exact fun _ => rfl
  | cons q l ih =>
    intro s
    rw [List.cons_append, State.createList, State.createList]
    cases s.lowestEmpty with
    | none => rfl
    | some i => exact ih _

/-- What a body derives rests on the bodies alone (R61). -/
theorem derivedOf_congr {s t : State} (bodies : t.bodies = s.bodies) (j w : Nat) (b : BodyId) (x : Body) :
    t.derivedOf j w b x = s.derivedOf j w b x := by
  have at_ (n : Nat) : t.bodyAt n = s.bodyAt n := by
    unfold State.bodyAt State.body
    rw [bodies]
  have leading : t.leadingNeighbour x = s.leadingNeighbour x := by
    unfold State.leadingNeighbour
    rw [at_]
  unfold State.derivedOf
  rw [leading]

/-- The records that a list of bodies derives, each with its body (R61). -/
def State.derivedBy (s : State) (j w : Nat) (l : List (BodyId × Body)) : List (BodyId × Constraint) :=
  l.flatMap fun y => (s.derivedOf j w y.1 y.2).map fun x => (y.1, x)

theorem bodies_createList : ∀ (l : List (BodyId × Constraint)) (s t : State), s.createList l = .ok t → t.bodies = s.bodies
  | [], s, t, h => by cases h; rfl
  | q :: l, s, t, h => by
    rw [State.createList] at h
    cases empty : s.lowestEmpty with
    | none =>
      rw [empty] at h
      cases h
    | some i =>
      rw [empty] at h
      exact bodies_createList l (s.setConstraint i (some q.2)) t h

theorem buildAll_eq_createList (j w : Nat) : ∀ (l : List (BodyId × Body)) (s : State),
    s.buildAll j w l = s.createList (s.derivedBy j w l)
  | [], _ => rfl
  | y :: l, s => by
    rw [State.buildAll, createAll_eq_createList, State.derivedBy, List.flatMap_cons, createList_append]
    cases made : s.createList ((s.derivedOf j w y.1 y.2).map fun x => (y.1, x)) with
    | error f => rfl
    | ok t =>
      have same : t.derivedBy j w l = s.derivedBy j w l := by
        unfold State.derivedBy
        simp only [derivedOf_congr (bodies_createList _ s t made)]
      exact (buildAll_eq_createList j w l t).trans (congrArg t.createList same)

/-- The EMPTY ids, in ascending order. -/
def State.emptyIds (s : State) : List ConstraintId := (ids 128).filter fun c => (s.constraint c).isNone

theorem head?_emptyIds (s : State) : s.emptyIds.head? = s.lowestEmpty := List.head?_filter

theorem emptyIds_of_lowest {c : ConstraintId} (h : s.lowestEmpty = some c) (x : Constraint) :
    s.emptyIds = c :: (s.setConstraint c (some x)).emptyIds := s.filter_isNone_setConstraint h x

/-- More records than EMPTY ids: the first that finds none fails, with its body (R61). -/
theorem createList_of_full : ∀ (l : List (BodyId × Constraint)) {s : State} {b : BodyId} {x : Constraint},
    l[s.emptyIds.length]? = some (b, x) → s.createList l = .error (.tableFull, .body b)
  | [], _, _, _, h => by cases h
  | q :: l, s, b, x, h => by
    rw [State.createList]
    cases empty : s.lowestEmpty with
    | none =>
      have none : s.emptyIds = [] := List.head?_eq_none_iff.1 ((head?_emptyIds s).trans empty)
      rw [none] at h
      cases h
      rfl
    | some i =>
      rw [emptyIds_of_lowest empty q.2] at h
      exact createList_of_full l h

/-- What a list of records has made of the table: the records at the EMPTY ids in their order, the rest as it was (R61). -/
def Created (s u : State) (l : List (BodyId × Constraint)) : Prop :=
  u = { s with constraints := u.constraints } ∧ (∀ q ∈ l.zip s.emptyIds, u.constraint q.2 = some q.1.2)
    ∧ ∀ c, (∀ q ∈ l.zip s.emptyIds, q.2 ≠ c) → u.constraint c = s.constraint c

theorem constraint_of_mem_emptyIds {c : ConstraintId} (h : c ∈ s.emptyIds) : s.constraint c = none :=
  Option.isNone_iff_eq_none.1 (mem_filter_ids.1 h)

theorem created_cons {u : State} {q : BodyId × Constraint} {l : List (BodyId × Constraint)} {i : ConstraintId}
    (empty : s.lowestEmpty = some i) (h : Created (s.setConstraint i (some q.2)) u l) : Created s u (q :: l) := by
  obtain ⟨frame, records, others⟩ := h
  have ids := emptyIds_of_lowest empty q.2
  have apart : ∀ r ∈ l.zip (s.setConstraint i (some q.2)).emptyIds, r.2 ≠ i := fun r hr same => by
    have none := constraint_of_mem_emptyIds (List.of_mem_zip hr).2
    rw [same, State.constraint_setConstraint_self] at none
    cases none
  refine ⟨frame, fun r hr => ?_, fun c hc => ?_⟩
  · rw [ids, List.zip_cons_cons, List.mem_cons] at hr
    rcases hr with rfl | hr
    · rw [others i apart, State.constraint_setConstraint_self]
    · exact records r hr
  · rw [ids, List.zip_cons_cons] at hc
    have ne : i ≠ c := hc (q, i) List.mem_cons_self
    rw [others c fun r hr => hc r (List.mem_cons_of_mem _ hr), s.constraint_setConstraint_of_ne ne]

/-- As many EMPTY ids as records: each is created (R61). -/
theorem createList_of_room : ∀ (l : List (BodyId × Constraint)) {s : State}, l.length ≤ s.emptyIds.length →
    ∃ u, s.createList l = .ok u ∧ Created s u l
  | [], s, _ => ⟨s, rfl, rfl, nofun, fun _ _ => rfl⟩
  | q :: l, s, room => by
    rw [State.createList]
    cases empty : s.lowestEmpty with
    | none =>
      have none : s.emptyIds = [] := List.head?_eq_none_iff.1 ((head?_emptyIds s).trans empty)
      rw [none] at room
      cases room
    | some i =>
      rw [emptyIds_of_lowest empty q.2] at room
      obtain ⟨u, made, created⟩ := createList_of_room l (Nat.le_of_succ_le_succ room)
      exact ⟨u, made, created_cons empty created⟩

/-! ### The indexes (R62) -/

theorem writeIndexes_of_long {p : PointId} (seated : (s.point p).seat.isSome) (long : 8 < (s.indexOf p).length)
    (below : ∀ q, q < p → (s.point q).seat.isSome → (s.indexOf q).length ≤ 8) :
    s.writeIndexes = .error (.indexFull, .point p) := by
  have found : ((ids 48).find? fun p => (s.point p).seat.isSome && decide (Config.maxIndex < (s.indexOf p).length)) =
      some p := by
    refine find?_ids_eq_some_iff.2 ⟨?_, fun q lt => ?_⟩
    · rw [seated, decide_eq_true (show Config.maxIndex < _ from long)]
      rfl
    · rw [Bool.and_eq_false_imp]
      exact fun corner => decide_eq_false (Nat.not_lt.2 (below q lt corner))
  rw [State.writeIndexes, found]

theorem writeIndexes_of_short (short : ∀ p, (s.point p).seat.isSome → (s.indexOf p).length ≤ 8) :
    s.writeIndexes = .ok (s.mapPoints fun p x => if x.seat.isSome then { x with index := s.indexOf p } else x) := by
  have none : ((ids 48).find? fun p => (s.point p).seat.isSome && decide (Config.maxIndex < (s.indexOf p).length)) =
      none := by
    refine find?_ids_eq_none_iff.2 fun q => ?_
    rw [Bool.and_eq_false_imp]
    exact fun corner => decide_eq_false (Nat.not_lt.2 (short q corner))
  rw [State.writeIndexes, none]

/-! ### The build after the checks (R61, R62) -/

section built

variable {j w : Nat} (bodies : ∀ z ∈ s.bodiesInOrder, s.checkBody z.1 z.2 = none) (customs : ∀ c, s.checkCustom c = none)
include bodies customs

theorem build_of_full {b : BodyId} {x : Constraint}
    (full : (s.derivedBy j w s.bodiesInOrder)[s.emptyIds.length]? = some (b, x)) :
    s.build j w = .error (.tableFull, .body b) := by
  rw [s.build_of_checks bodies customs, buildAll_eq_createList, createList_of_full _ full]

theorem build_of_room (room : (s.derivedBy j w s.bodiesInOrder).length ≤ s.emptyIds.length) :
    ∃ u, s.build j w = u.writeIndexes ∧ Created s u (s.derivedBy j w s.bodiesInOrder) := by
  obtain ⟨u, made, created⟩ := createList_of_room _ room
  refine ⟨u, ?_, created⟩
  rw [s.build_of_checks bodies customs, buildAll_eq_createList, made]

end built

end Sys2Proof.Machine
end

section

/-! The completion of a compilation (R58 to R64). -/
namespace Sys2Proof.Machine

variable {s : State}

/-! ### The completion as an event (R63, R64) -/

section completion

variable {k : Compilation} (compiling : s.plan.state = .compiling) (running : s.plan.compilation = some k)
include compiling running

theorem completeCompile_of_error {f : Failure} (failed : s.build k.jointLimit k.warn = .error f) :
    s.completeCompile = (s.compileFails f).settle := by
  unfold State.completeCompile
  rw [compiling, running]
  dsimp only
  rw [failed]

theorem completeCompile_of_ok {t : State} (built : s.build k.jointLimit k.warn = .ok t) :
    s.completeCompile = t.compileSucceeds.settle := by
  unfold State.completeCompile
  rw [compiling, running]
  dsimp only
  rw [built]

end completion

/-! ### A success (R63) -/

/-- The records as a success leaves them before the evaluation: corners PLANNED, the plan COMPILED (R63). -/
def State.compiledPlan (t : State) : State :=
  { t.mapPoints fun _ x => if x.life = .bound ∧ x.seat.isSome then { x with life := .planned } else x with
    plan := ⟨.compiled, .success, none, none⟩ }

theorem constraint_raiseFlag (t : State) (f : Flag) (c : ConstraintId) :
    (t.raiseFlag f).constraint c = t.constraint c := rfl

/-- A flag raised where constraints and attention alone were written leaves it so. -/
theorem raiseFlag_of_frame {u t : State} (frame : t = { u with constraints := t.constraints, attention := t.attention })
    (f : Flag) : t.raiseFlag f =
      { u with constraints := (t.raiseFlag f).constraints, attention := (t.raiseFlag f).attention } :=
  congrArg (fun v : State => v.raiseFlag f) frame

theorem compileSucceeds_eq (t : State) : t.compileSucceeds = t.compiledPlan.evaluateAll.raiseFlag .plan := rfl

theorem judged_compileSucceeds (t : State) : t.compiledPlan.Judged t.compileSucceeds := by
  rw [compileSucceeds_eq]
  exact (State.Judged.evaluateAll t.compiledPlan).trans (State.Judged.raiseFlag t.compiledPlan.evaluateAll .plan)

theorem point_compiledPlan (t : State) (p : PointId) : ∃ life, t.compiledPlan.point p = { t.point p with life := life } := by
  have written : t.compiledPlan.point p =
      if (t.point p).life = .bound ∧ (t.point p).seat.isSome then { t.point p with life := .planned } else t.point p :=
    t.point_mapPoints _ p
  rw [written]
  split
  · exact ⟨_, rfl⟩
  · exact ⟨_, rfl⟩

theorem constraintValue_compiledPlan (t : State) (tm : Terms) :
    t.compiledPlan.constraintValue tm = t.constraintValue tm := by
  have lift (p : PointId) : (t.compiledPlan.point p).lift = (t.point p).lift := by
    obtain ⟨life, eq⟩ := point_compiledPlan t p
    rw [eq, Point.lift, Point.lift]
  cases tm <;> simp only [State.constraintValue, lift]

theorem anyTermLost_compiledPlan (t : State) (tm : Terms) : t.compiledPlan.anyTermLost tm = t.anyTermLost tm := by
  have health (p : PointId) : (t.compiledPlan.point p).health = (t.point p).health := by
    obtain ⟨life, eq⟩ := point_compiledPlan t p
    rw [eq]
  simp only [State.anyTermLost, health]

/-- Every record is evaluated once (R63). -/
theorem constraint_compileSucceeds {t : State} {c : ConstraintId} {x : Constraint} {v : Int}
    (held : t.constraint c = some x) (value : t.constraintValue x.terms = some v) :
    t.compileSucceeds.constraint c =
      some { x with state := judgeValue (t.anyTermLost x.terms) v x.limit x.warn, last := some v } := by
  have all : t.compiledPlan.evaluateAll.constraint c = (t.compiledPlan.evaluate c).constraint c := by
    rw [State.evaluateAll, State.constraint_foldl_evaluate, if_pos (mem_ids c)]
  rw [compileSucceeds_eq, constraint_raiseFlag, all, State.constraint_evaluate_self, show t.compiledPlan.constraint c = some x from held, Option.map_some,
    constraintValue_compiledPlan, value, anyTermLost_compiledPlan]

/-- While the plan is COMPILING no group is in use and no jog ACTIVE (R101). -/
theorem still_of_compiling (toMove : s.InServiceToMove) (compiling : s.plan.state = .compiling) :
    s.AllFree ∧ s.jog.active = none := by
  have notJudging : ¬s.judging = true := by
    rw [judging_iff, compiling]
    exact fun h => h.elim nofun nofun
  refine ⟨fun g => not_not.1 fun used => notJudging (toMove.2.2 g used), ?_⟩
  refine Option.not_isSome_iff_eq_none.1 fun active => ?_
  have inService := toMove.1 active
  rw [compiling] at inService
  cases inService

theorem build_frame {j w : Nat} {t : State} (built : s.build j w = .ok t) :
    t.attention = s.attention ∧ t.groups = s.groups ∧ t.jog = s.jog := by
  obtain ⟨constraints, f, eq⟩ := State.build_eq built
  rw [eq]
  exact ⟨rfl, rfl, rfl⟩

section quiet

variable {j w : Nat} {t : State} (built : s.build j w = .ok t) (free : s.AllFree) (idle : s.jog.active = none)
include built free idle

/-- The evaluations of a success write constraints and flags alone (R99, R101). -/
theorem evaluateAll_quiet : t.compiledPlan.evaluateAll = { t.compiledPlan with
      constraints := t.compiledPlan.evaluateAll.constraints, attention := t.compiledPlan.evaluateAll.attention }
    ∧ ∀ f, t.compiledPlan.evaluateAll.attention.isSet f = true ↔ s.attention.isSet f = true ∨
        ∃ c x v, t.constraint c = some x ∧ t.constraintValue x.terms = some v
          ∧ x.state ≠ judgeValue (t.anyTermLost x.terms) v x.limit x.warn
          ∧ ((f = .warn ∧ judgeValue (t.anyTermLost x.terms) v x.limit x.warn = .warn)
            ∨ (f = .breach ∧ (judgeValue (t.anyTermLost x.terms) v x.limit x.warn = .breach
              ∨ judgeValue (t.anyTermLost x.terms) v x.limit x.warn = .blind))) := by
  obtain ⟨attention, groups, jog⟩ := build_frame built
  obtain ⟨frame, flags⟩ := State.foldl_evaluate_quiet (ids 128) t.compiledPlan (List.nodup_finRange 128)
    (fun g => (congrArg Group.state (group_congr groups g)).trans (free g)) ((congrArg JogSlot.active jog).trans idle)
  refine ⟨frame, fun f => (flags f).trans (or_congr ?_ ?_)⟩
  · rw [show t.compiledPlan.attention = t.attention from rfl, attention]
  · simp only [constraintValue_compiledPlan, anyTermLost_compiledPlan, mem_ids, true_and]
    rfl

/-- The flags that a success sets (R63, R101). -/
theorem isSet_compileSucceeds_iff (f : Flag) :
    let enters (st : ConstraintState) := ∃ c x v, t.constraint c = some x
      ∧ t.constraintValue x.terms = some v ∧ judgeValue (t.anyTermLost x.terms) v x.limit x.warn = st ∧ x.state ≠ st
    t.compileSucceeds.attention.isSet f = true ↔ s.attention.isSet f = true ∨ f = .plan ∨ (f = .warn ∧ enters .warn)
      ∨ (f = .breach ∧ (enters .breach ∨ enters .blind)) := by
  intro enters
  obtain ⟨_, flags⟩ := evaluateAll_quiet built free idle
  rw [compileSucceeds_eq, State.isSet_raiseFlag_iff, flags]
  constructor
  · rintro ((was | ⟨c, x, v, held, value, changed, ⟨rfl, warn⟩ | ⟨rfl, breach | blind⟩⟩) | rfl)
    · exact .inl was
    · exact .inr (.inr (.inl ⟨rfl, c, x, v, held, value, warn, warn ▸ changed⟩))
    · exact .inr (.inr (.inr ⟨rfl, .inl ⟨c, x, v, held, value, breach, breach ▸ changed⟩⟩))
    · exact .inr (.inr (.inr ⟨rfl, .inr ⟨c, x, v, held, value, blind, blind ▸ changed⟩⟩))
    · exact .inr (.inl rfl)
  · rintro (was | rfl | ⟨rfl, c, x, v, held, value, warn, changed⟩
      | ⟨rfl, ⟨c, x, v, held, value, breach, changed⟩ | ⟨c, x, v, held, value, blind, changed⟩⟩)
    · exact .inl (.inl was)
    · exact .inr rfl
    · exact .inl (.inr ⟨c, x, v, held, value, warn ▸ changed, .inl ⟨rfl, warn⟩⟩)
    · exact .inl (.inr ⟨c, x, v, held, value, breach ▸ changed, .inr ⟨rfl, .inl breach⟩⟩)
    · exact .inl (.inr ⟨c, x, v, held, value, blind ▸ changed, .inr ⟨rfl, .inr blind⟩⟩)

end quiet

/-! ### What the build derives (R61) -/

theorem derivedOf_of_open {j w : Nat} {b : BodyId} {x : Body} (open_ : x.joint ≠ .closed) :
    s.derivedOf j w b x =
      [⟨.side, .two x.ll x.lr, x.side, w, .idle, none, some b⟩, ⟨.side, .two x.tl x.tr, x.side, w, .idle, none, some b⟩,
       ⟨.end_, .two x.ll x.tl, x.end_, w, .idle, none, some b⟩, ⟨.end_, .two x.lr x.tr, x.end_, w, .idle, none, some b⟩,
       ⟨.twist, .four x.ll x.lr x.tl x.tr, x.twist, w, .idle, none, some b⟩] := by
  unfold State.derivedOf
  cases joint : x.joint with
  | closed => exact absurd joint open_
  | none => rfl
  | open_ => rfl

theorem derivedOf_of_closed {j w : Nat} {b c : BodyId} {x y : Body} (closed : x.joint = .closed)
    (leading : s.leadingNeighbour x = some (c, y)) :
    s.derivedOf j w b x =
      [⟨.side, .two x.ll x.lr, x.side, w, .idle, none, some b⟩, ⟨.side, .two x.tl x.tr, x.side, w, .idle, none, some b⟩,
       ⟨.end_, .two x.ll x.tl, x.end_, w, .idle, none, some b⟩, ⟨.end_, .two x.lr x.tr, x.end_, w, .idle, none, some b⟩,
       ⟨.twist, .four x.ll x.lr x.tl x.tr, x.twist, w, .idle, none, some b⟩]
      ++ [⟨.joint, .two y.tl x.ll, j, w, .idle, none, some b⟩, ⟨.joint, .two y.tr x.lr, j, w, .idle, none, some b⟩] := by
  unfold State.derivedOf
  rw [closed, leading]

theorem compileFails_eq (s : State) (f : Failure) : s.compileFails f =
    (State.emptyDerived { s with plan := ⟨.drafted, f.1, some f.2, none⟩ }).raiseFlag .plan := rfl

theorem earlier_iff (x : Body) : (s.bodiesInOrder.any fun y => y.2.position < x.position) = true ↔
    ∃ y ∈ s.bodiesInOrder, y.2.position < x.position := by
  simp only [List.any_eq_true, decide_eq_true_eq]

/-- Settles O34: the completion by the build's outcome, the build phase by phase, and the order of the bodies. -/
theorem compilationCompletes : Obligations.CompilationCompletes := by
  refine ⟨fun s k hw compiling running => ⟨fun f failed => ⟨?fails, rfl, fun c => ?keeps, State.isSet_raiseFlag _ _, rfl⟩,
      fun t built => ⟨?succeeds, (judged_compileSucceeds t).plan, judged_compileSucceeds t,
        fun c x v => constraint_compileSucceeds,
        State.isSet_raiseFlag t.compiledPlan.evaluateAll .plan, compileSucceeds_eq t, fun toMove => ?quiet⟩⟩,
    fun s j w => ⟨fun before after y f order passed failed => s.build_of_checkBody order passed failed j w,
      fun c x bodies below held outside => build_of_outside bodies below held outside j w, fun bodies customs => ?build⟩,
    fun s p => ⟨ascending_filter_ids _, fun c => s.mem_indexOf_iff p c⟩,
    fun s b x => ⟨fun p => checkBody_of_unbound, fun bound => ⟨fun closed none earlier => ?gap,
      fun closed none first => ?orphan, fun joined => ?joined⟩⟩,
    fun s seats => ⟨ascending_bodiesInOrder s, s.mem_bodiesInOrder_iff seats.2.2.2,
      leadingNeighbour_eq_some_iff seats.2.2.2⟩,
    fun s j w b x => ⟨derivedOf_of_open, fun c y => derivedOf_of_closed⟩⟩
  case fails =>
    exact congrArg Host.Outcome.next ((event_working s hw _).trans (completeCompile_of_error compiling running failed))
  case keeps => exact Table.at_mapAll s.constraints _ c
  case succeeds =>
    exact congrArg Host.Outcome.next ((event_working s hw _).trans (completeCompile_of_ok compiling running built))
  case quiet =>
    obtain ⟨free, idle⟩ := still_of_compiling toMove compiling
    obtain ⟨_, groups, jog⟩ := build_frame built
    refine ⟨isSet_compileSucceeds_iff built free idle, ?_, groups, jog⟩
    rw [compileSucceeds_eq]
    exact raiseFlag_of_frame (evaluateAll_quiet built free idle).1 .plan
  case build =>
    have customs' : ∀ c, s.checkCustom c = none := fun c => (s.checkCustom_eq_none_iff c).2 (customs c)
    refine ⟨fun b x full => build_of_full bodies customs' full, fun room => ?_⟩
    obtain ⟨u, built, frame, records, others⟩ := build_of_room bodies customs' room
    have points (p : PointId) : u.point p = s.point p := by
      rw [frame]
      rfl
    refine ⟨u, frame, records, others, fun p seated long below => ?_, fun short => ?_⟩
    · rw [built, writeIndexes_of_long (by rw [points, seated]) long fun q lt corner => below q lt (by rw [← points, corner])]
    · rw [built, writeIndexes_of_short fun p corner => short p (by rw [← points, corner])]
  all_goals rw [checkBody_of_bound bound]
  case gap => rw [if_pos ⟨closed, none⟩, if_pos ((earlier_iff x).2 earlier)]
  case orphan => rw [if_pos ⟨closed, none⟩, if_neg fun h => first ((earlier_iff x).1 h)]
  case joined => exact if_neg fun h => joined.elim (fun open_ => open_ h.1) fun some => some h.2

end Sys2Proof.Machine
end

section

/-! The bytes of a frame and its checks (R182, R184). -/
namespace Sys2Proof.Machine

/-! ### Numbers as bytes (R182) -/

theorem toNat_byte {n : Nat} (small : n < 256) : (byte n).toNat = n := by
  simp [byte, Nat.mod_eq_of_lt small]

@[simp] theorem byte_toNat (b : Byte) : byte b.toNat = b := by
  simp [byte]

/-- The two bytes of a number, read back (R182). -/
theorem two_bytes {n : Nat} (small : n < 65536) : two (byte (n / 256)) (byte n) = n := by
  simp only [two, byte, BitVec.toNat_ofNat]
  omega

theorem two_lt (a b : Byte) : two a b < 65536 := by
  have := a.isLt
  have := b.isLt
  simp only [two]
  omega

theorem byte_two_div (a b : Byte) : byte (two a b / 256) = a := by
  have high : two a b / 256 = a.toNat := by
    have := b.isLt
    simp only [two]
    omega
  rw [high, byte_toNat]

theorem byte_two (a b : Byte) : byte (two a b) = b := by
  have low : byte (two a b) = byte b.toNat := byte_congr (by simp only [two]; omega)
  rw [low, byte_toNat]

/-- Two bytes hold a number exactly where they are its bytes (R182). -/
theorem two_eq_iff {a b : Byte} {n : Nat} (small : n < 65536) : two a b = n ↔ [a, b] = be16 n := by
  constructor
  · rintro rfl
    simp [be16, byte_two_div, byte_two]
  · intro bytes
    obtain ⟨rfl, rfl⟩ : a = byte (n / 256) ∧ b = byte n := by simpa [be16] using bytes
    exact two_bytes small

/-! ### The checks of a frame take byte after byte (R184) -/

theorem crcShifts_eq_iterate {n : Nat} (poly : BitVec n) (k : Nat) (reg : BitVec n) :
    crcShifts poly k reg = (crcShift poly)^[k] reg := by
  induction k generalizing reg with
  | zero => rfl
  | succ k ih => rw [crcShifts, ih, Function.iterate_succ_apply]

theorem crcShift_of_width_eight (reg : Byte) :
    crcShift 0x07#8 reg = if reg.getLsbD 7 = true then (reg <<< 1) ^^^ 0x07 else reg <<< 1 := rfl

theorem crcShift_of_width_sixteen (reg : BitVec 16) :
    crcShift 0x1021#16 reg = if reg.getLsbD 15 = true then (reg <<< 1) ^^^ 0x1021 else reg <<< 1 := rfl

theorem crc8_append_byte (bs : List Byte) (b : Byte) :
    crc8 (bs ++ [b]) = (crcShift 0x07#8)^[8] (crc8 bs ^^^ b) := by
  rw [← crcShifts_eq_iterate, crc8, List.foldl_append]
  rfl

theorem crc16_append_byte (bs : List Byte) (b : Byte) :
    crc16 (bs ++ [b]) = (crcShift 0x1021#16)^[8] (crc16 bs ^^^ ((b.setWidth 16 : BitVec 16) <<< 8)) := by
  rw [← crcShifts_eq_iterate, crc16, List.foldl_append]
  rfl

end Sys2Proof.Machine

end

section

/-! The frames of a link and the judging of a slot (R76, R184, R189, R190). -/
namespace Sys2Proof.Machine

/-! ### The frames of nodes (R189) -/

/-- A REPLY frame's fields come back from its bytes (R189). -/
theorem decodeReply_replyFrame (f : ReplyFields) (node : f.node < 256) (height : f.height < 65536)
    (load : f.load < 65536) : decodeReply (replyFrame f) = some f := by
  have crc : ∀ body, two (byte ((crc16 body).toNat / 256)) (byte (crc16 body).toNat) = (crc16 body).toNat :=
    fun body => two_bytes (crc16 body).isLt
  simp [decodeReply, replyFrame, linkFrame, be16, crc, toNat_byte node, two_bytes height, two_bytes load]

/-- An ANNOUNCE frame's fields come back from its bytes; bits 4 to 7 of the class are ignored (R189). -/
theorem decodeAnnounce_announceFrame (f : AnnounceFields) (node : f.node < 256) (capacity : f.capacity < 65536)
    (stroke : f.stroke < 65536) (nodeClass : f.nodeClass < 256) (height : f.height < 65536) :
    decodeAnnounce (announceFrame f) = some { f with nodeClass := f.nodeClass % 16 } := by
  have crc : ∀ body, two (byte ((crc16 body).toNat / 256)) (byte (crc16 body).toNat) = (crc16 body).toNat :=
    fun body => two_bytes (crc16 body).isLt
  simp [decodeAnnounce, announceFrame, linkFrame, be16, crc, toNat_byte node, toNat_byte nodeClass,
    two_bytes capacity, two_bytes stroke, two_bytes height]

/-- A frame of another length than 8, or whose CRC does not match, is no REPLY (R76, R189). -/
theorem decodeReply_eq_none {bytes : List Byte}
    (bad : bytes.length ≠ 8 ∨ bytes.drop 6 ≠ be16 (crc16 (bytes.take 6)).toNat) : decodeReply bytes = none := by
  unfold decodeReply
  split
  case h_2 => rfl
  case h_1 n h1 h0 l1 l0 fl c1 c0 =>
    refine if_neg fun agrees => ?_
    exact bad.elim (· rfl) (· ((two_eq_iff (crc16 _).isLt).1 agrees.symm))

/-- A frame of another length than 10, or whose CRC does not match, is no ANNOUNCE (R76, R189). -/
theorem decodeAnnounce_eq_none {bytes : List Byte}
    (bad : bytes.length ≠ 10 ∨ bytes.drop 8 ≠ be16 (crc16 (bytes.take 8)).toNat) : decodeAnnounce bytes = none := by
  unfold decodeAnnounce
  split
  case h_2 => rfl
  case h_1 n a1 a0 k1 k0 cl h1 h0 c1 c0 =>
    refine if_neg fun agrees => ?_
    exact bad.elim (· rfl) (· ((two_eq_iff (crc16 _).isLt).1 agrees.symm))

/-! ### The frames of the part (R189, R190) -/

/-- The control byte of a POLL as R189 lays it out. -/
theorem pollControl_eq (permit : Permit) (stop : Bool) :
    pollControl permit stop = byte (permit.code + if stop = true then 128 else 0) := by
  cases stop <;> rfl

/-! ### The judging of a slot (R76) -/

theorem HeardFrame.inWindow_iff {sent : Nat} {f : HeardFrame} :
    f.inWindow sent = true ↔ sent * 10 ≤ f.start ∧ f.start ≤ sent * 10 + 250 := by
  rw [HeardFrame.inWindow, Bool.and_eq_true]
  exact and_congr decide_eq_true_iff decide_eq_true_iff

theorem HeardFrame.sound_iff {f : HeardFrame} : f.sound = true ↔ f.spoiled = false ∧ f.stop < 400 := by
  rw [HeardFrame.sound, Bool.and_eq_true, Bool.not_eq_true']
  exact and_congr Iff.rfl decide_eq_true_iff

/-- What the end of a slot makes where no answer stands: an expected answer is missed (R76). -/
def unanswered (l : LinkId) : Exchange → Option Instr
  | .poll .. => some (.missedReply l)
  | .probe .. => some (.probeUnanswered l)
  | .allStop => none

/-- What the end of a slot makes of the bytes of a sound answer (R76). -/
def answered (l : LinkId) (bytes : List Byte) : Exchange → Option Instr
  | .poll .. => ((decodeReply bytes).map (Instr.reply l)).or (some (.missedReply l))
  | .probe .. => ((decodeAnnounce bytes).map (Instr.announce l)).or (some (.probeUnanswered l))
  | .allStop => none

section judging

variable {l : LinkId} {e : Exchange} {heard : List HeardByte}

theorem judgeSlot_of_no_answer
    (silent : (slotFrames heard).find? (HeardFrame.inWindow e.sent.1.length) = none) :
    judgeSlot l e heard = unanswered l e := by
  unfold judgeSlot
  rw [silent]
  cases e <;> rfl

theorem judgeSlot_of_unsound {f : HeardFrame}
    (first : (slotFrames heard).find? (HeardFrame.inWindow e.sent.1.length) = some f) (bad : f.sound = false) :
    judgeSlot l e heard = unanswered l e := by
  unfold judgeSlot
  rw [first]
  cases e <;> simp [bad, unanswered]

theorem judgeSlot_of_sound {f : HeardFrame}
    (first : (slotFrames heard).find? (HeardFrame.inWindow e.sent.1.length) = some f) (good : f.sound = true) :
    judgeSlot l e heard = answered l f.bytes e := by
  unfold judgeSlot
  rw [first]
  cases e with
  | poll => cases reply : decodeReply f.bytes <;> simp [good, reply, answered]
  | probe => cases announce : decodeAnnounce f.bytes <;> simp [good, announce, answered]
  | allStop => rfl

/-- The first frame of the slot that begins in the window (R76). -/
theorem find?_inWindow_eq_some {frames before after : List HeardFrame} {f : HeardFrame} {sent : Nat}
    (split : frames = before ++ f :: after) (earlier : ∀ g ∈ before, ¬ g.inWindow sent = true)
    (begins : f.inWindow sent = true) : frames.find? (HeardFrame.inWindow sent) = some f := by
  rw [split, List.find?_append, List.find?_eq_none.2 earlier, Option.none_or]
  exact List.find?_cons_of_pos begins

end judging

/-- The command that a slot's end makes joins the queue (R76). -/
theorem slotEnd_of_judgeSlot {s : State} {l : LinkId} {e : Exchange} {heard : List HeardByte} {c : Instr}
    (exchange : (s.engine l).exchange = some e) (judged : judgeSlot l e heard = some c) :
    s.slotEnd l heard = { s with pending := s.pending ++ [c] } := by
  simp [State.slotEnd, exchange, judged]

/-- Settles O60: frame by frame from the byte facts, and the slot by its first frame in the window. -/
theorem linkFramesAndSlots : Obligations.LinkFramesAndSlots := by
  refine ⟨?sent, decodeReply_replyFrame, decodeAnnounce_announceFrame,
    fun bytes => ⟨decodeReply_eq_none, decodeAnnounce_eq_none⟩, ?crc, ?cut, ?judge,
    fun s l e heard c => slotEnd_of_judgeSlot⟩
  case sent =>
    intro p n permit target stop discard
    refine ⟨?_, rfl, rfl⟩
    simp only [Exchange.sent, pollControl_eq]
    rfl
  case crc =>
    intro bs b
    exact ⟨rfl, crc16_append_byte bs b⟩
  case cut =>
    intro b rest
    refine ⟨rfl, fun none_ => ?_, fun f fs some_ => ⟨cutFrames_cons_of_idle some_, cutFrames_cons_of_near some_⟩⟩
    rw [cutFrames, none_]
    rfl
  case judge =>
    intro l e heard
    have none_eq : unanswered l e = match e with
      | .poll .. => some (.missedReply l)
      | .probe .. => some (.probeUnanswered l)
      | .allStop => none := by cases e <;> rfl
    refine ⟨fun silent => (judgeSlot_of_no_answer (List.find?_eq_none.2 fun f hf begins =>
      silent f hf (HeardFrame.inWindow_iff.1 begins))).trans none_eq,
      fun before after f frames earlier begins => ?_⟩
    have first := find?_inWindow_eq_some frames
      (fun g hg begins => earlier g hg (HeardFrame.inWindow_iff.1 begins)) (HeardFrame.inWindow_iff.2 begins)
    refine ⟨fun bad => (judgeSlot_of_unsound first ?_).trans none_eq,
      fun good => (judgeSlot_of_sound first (HeardFrame.sound_iff.2 good)).trans ?_⟩
    · exact Bool.eq_false_iff.2 fun sound => bad (HeardFrame.sound_iff.1 sound)
    · cases e with
      | poll => cases reply : decodeReply f.bytes <;> simp [answered, reply]
      | probe => cases announce : decodeAnnounce f.bytes <;> simp [answered, announce]
      | allStop => rfl

end Sys2Proof.Machine

end

section

/-! The operand layouts of the requests: encoding, then decoding, gives the operands back (R182, R183, R186). -/
namespace Sys2Proof.Machine

/-! ### The encodings of single operands (R182) -/

theorem enc16_eq (n : Nat) : enc16 n = [byte (n / 256), byte n] := rfl

/-- A signed height comes back from its two bytes (R182). -/
theorem signed_of_enc16s {v : Int} (small : v.natAbs ≤ 32767) : ∃ a b, enc16s v = [a, b] ∧ signed a b = v := by
  refine ⟨_, _, rfl, ?_⟩
  have unsigned := two_bytes (n := (v % 65536).toNat) (by omega)
  rw [signed, unsigned]
  split <;> omega

/-- A limit that takes DEFAULT comes back from its two bytes (R5, R182). -/
theorem limitOp_of_encLimitOp {v : OrDefault} (ok : bodyLimitOk v = true) :
    ∃ a b, encLimitOp v = [a, b] ∧ limitOp a b = v := by
  cases v with
  | default_ => exact ⟨_, _, rfl, if_pos (two_bytes (by decide))⟩
  | value n =>
    obtain ⟨_, small⟩ := within_iff.1 ok
    refine ⟨_, _, rfl, ?_⟩
    rw [limitOp, two_bytes (by omega), if_neg (by omega)]

theorem warnOp_encWarnOp {v : OrDefault} (ok : warnOk v = true) : warnOp (encWarnOp v) = v := by
  cases v with
  | default_ => rfl
  | value n =>
    obtain ⟨_, small⟩ := within_iff.1 ok
    rw [encWarnOp, warnOp, toNat_byte (by omega), if_neg (by omega)]

theorem addressOp_encAddressOp {a : AddressOp} (ok : AddressOp.ok a = true) : addressOp (encAddressOp a) = a := by
  obtain ⟨link, node⟩ := a
  simp only [AddressOp.ok, Bool.and_eq_true, decide_eq_true_eq, within_iff] at ok
  simp only [addressOp, encAddressOp]
  rw [toNat_byte (by omega)]
  congr 1 <;> omega

theorem corner?_code (c : Corner) : corner? (byte (Corner.code c)) = some c := by
  cases c <;> rfl

theorem joint?_code (j : Joint) : joint? (byte (Joint.code j)) = some j := by
  cases j <;> rfl

theorem bool?_code (b : Bool) : bool? (byte (boolCode b)) = some b := by
  cases b <;> rfl

theorem polarity?_code (q : Polarity) : polarity? (byte (Polarity.code q)) = some q := by
  cases q <;> rfl

theorem parameter?_code (p : LineParameter) : parameter? (byte (LineParameter.code p)) = some p := by
  cases p with
  | group g => fin_cases g <;> rfl
  | all => rfl
  | absent => rfl

/-- A scope, or unchanged, comes back from its byte (R178, R182). -/
theorem scope?_code (sc : Option Scope) : scope? (byte ((sc.map Scope.code).getD 255)) = some sc := by
  cases sc with
  | none => rfl
  | some sc => cases sc <;> rfl

/-- A focus, or unchanged, comes back from its byte (R178, R182). -/
theorem focusOp_code {f : Option Nat} (ok : f.all (· < 48) = true) : focusOp (byte (f.getD 255)) = f := by
  cases f with
  | none => rfl
  | some n =>
    have small : n < 48 := of_decide_eq_true ok
    rw [Option.getD_some, focusOp, toNat_byte (by omega), if_neg (by omega)]

/-! ### Presence masks (R182, R183) -/

theorem presence_lt (bits : List Bool) : presence bits < 2 ^ bits.length := by
  induction bits with
  | nil => decide
  | cons b bits ih =>
    rw [presence, List.length_cons, pow_succ]
    cases b <;> simp only [boolCode] <;> grind

theorem testBit_presence (bits : List Bool) (i : Nat) : (presence bits).testBit i = bits.getD i false := by
  induction bits generalizing i with
  | nil => simp [presence]
  | cons b bits ih =>
    cases i with
    | zero => cases b <;> simp [presence, boolCode, Nat.testBit_zero]
    | succ i =>
      have half : (boolCode b + 2 * presence bits) / 2 = presence bits := by
        cases b <;> simp only [boolCode] <;> grind
      rw [presence, Nat.testBit_succ, half, ih, List.getD_cons_succ]

/-- A field that the mask marks where it is given is read as it was (R183). -/
theorem given_of_bit {α : Type} {mask bit : Nat} {o : Option α} {a : α} (marked : mask.testBit bit = o.isSome)
    (value : ∀ v ∈ o, a = v) : given mask bit a = o := by
  cases o with
  | none => simp [given, marked]
  | some v => simp [given, marked, value v rfl]

theorem givenCode_of_bit {α : Type} {mask bit : Nat} {o : Option α} {a : Option α}
    (marked : mask.testBit bit = o.isSome) (value : ∀ v ∈ o, a = some v) : givenCode mask bit a = some o := by
  cases o with
  | none => simp [givenCode, marked]
  | some v => simp [givenCode, marked, value v rfl]

/-- A given number below 256 is read from its byte (R183). -/
theorem given_toNat {mask bit : Nat} {o : Option Nat} (marked : mask.testBit bit = o.isSome)
    (small : ∀ n, o = some n → n < 256) : given mask bit (byte (o.getD 0)).toNat = o :=
  given_of_bit marked fun n hn => by
    cases hn
    exact toNat_byte (small n rfl)

/-- A given number below 65,536 is read from its two bytes (R183). -/
theorem given_two {mask bit : Nat} {o : Option Nat} (marked : mask.testBit bit = o.isSome)
    (small : ∀ n, o = some n → n < 65536) :
    given mask bit (two (byte (o.getD 0 / 256)) (byte (o.getD 0))) = o :=
  given_of_bit marked fun n hn => by
    cases hn
    exact two_bytes (small n rfl)

/-- A given limit is read from its two bytes (R183). -/
theorem given_limitOp {o : Option OrDefault} (ok : o.all bodyLimitOk = true) :
    ∃ a b, encLimitOp (o.getD .default_) = [a, b]
      ∧ ∀ mask bit : Nat, mask.testBit bit = o.isSome → given mask bit (limitOp a b) = o := by
  have range : bodyLimitOk (o.getD .default_) = true := by
    cases o with
    | none => rfl
    | some v => exact ok
  obtain ⟨a, b, bytes, value⟩ := limitOp_of_encLimitOp range
  refine ⟨a, b, bytes, fun mask bit marked => given_of_bit marked fun v hv => ?_⟩
  cases hv
  exact value

end Sys2Proof.Machine

end

section

/-! The operand layouts of the requests: encoding, then decoding, gives the operands back (R186). -/
namespace Sys2Proof.Machine

/-! ### Short layouts -/

theorem decodeId_byte {n bound : Nat} (small : bound ≤ 256) (ok : decide (n < bound) = true) :
    decodeId [byte n] = some n := by
  rw [decodeId, toNat_byte (Nat.lt_of_lt_of_le (of_decide_eq_true ok) small)]

theorem decodeSelect_encode {o : SelectOps} (ok : o.ok = true) :
    decodeSelect [byte (o.focus.getD 255), byte ((o.scope.map Scope.code).getD 255)] = some o := by
  rw [decodeSelect, scope?_code, focusOp_code ok]
  rfl

theorem decodeEnrol_encode {o : EnrolOps} (ok : o.ok = true) :
    decodeEnrol [byte o.point, encAddressOp o.address] = some o := by
  simp only [EnrolOps.ok, Bool.and_eq_true, decide_eq_true_eq] at ok
  obtain ⟨point, address⟩ := ok
  rw [decodeEnrol, addressOp_encAddressOp address, toNat_byte (by omega)]

theorem decodeFind_byAddress {a : AddressOp} (ok : (FindOps.byAddress a).ok = true) :
    decodeFind [0x00, encAddressOp a] = some (.byAddress a) := by
  rw [decodeFind, if_pos (by decide), addressOp_encAddressOp ok]

theorem decodeFind_byCorner {b : Nat} {c : Corner} (ok : (FindOps.byCorner b c).ok = true) :
    decodeFind [0x01, byte b, byte (Corner.code c)] = some (.byCorner b c) := by
  have small : b < 12 := of_decide_eq_true ok
  rw [decodeFind, if_pos (by decide), corner?_code, toNat_byte (by omega)]
  rfl

theorem decodeFormGroup_encode {o : FormGroupOps} (ok : o.ok = true) :
    decodeFormGroup ([byte o.group, byte o.bodies.length] ++ o.bodies.map byte) = some o := by
  obtain ⟨group, _, few, bodies, _⟩ := FormGroupOps.ok_iff.1 ok
  have back : (o.bodies.map byte).map (·.toNat) = o.bodies := by
    rw [List.map_map]
    exact (List.map_congr_left fun n hn => toNat_byte (Nat.lt_trans (bodies n hn) (by decide))).trans (List.map_id _)
  rw [List.cons_append, List.cons_append, List.nil_append, decodeFormGroup, toNat_byte (by omega),
    if_pos (List.length_map _), back, toNat_byte (by omega)]

theorem decodeStart_encode {o : StartOps} {most : Nat} (small : most < 65536) (ok : o.ok most = true) :
    decodeStart ([byte o.group] ++ enc16s o.travel ++ enc16 o.step ++ [byte o.gap]) = some o := by
  obtain ⟨group, _, travel, _, step, gap⟩ := StartOps.ok_iff.1 ok
  obtain ⟨a, b, bytes, value⟩ := signed_of_enc16s (v := o.travel) (by omega)
  simp [decodeStart, bytes, value, enc16_eq, two_bytes (n := o.step) (by omega), toNat_byte (n := o.group) (by omega),
    toNat_byte (n := o.gap) (by omega)]

theorem decodeAmendTravel_encode {o : AmendTravelOps} {most : Nat} (small : most < 65535) (ok : o.ok most = true) :
    decodeAmendTravel ([byte o.group] ++ enc16s o.travel ++ enc16 (o.step.getD 0xFFFF)) = some o := by
  obtain ⟨g, t, step⟩ := o
  obtain ⟨group, _, travel, steps⟩ := AmendTravelOps.ok_iff.1 ok
  obtain ⟨a, b, bytes, value⟩ := signed_of_enc16s (v := t) (Nat.le_trans travel (by decide))
  have number : (byte g).toNat = g := toNat_byte (Nat.lt_trans group (by decide))
  cases step with
  | none => simp [decodeAmendTravel, bytes, value, enc16_eq, two_bytes (n := 0xFFFF) (by decide), number]
  | some n =>
    obtain ⟨_, least⟩ := steps n rfl
    simp [decodeAmendTravel, bytes, value, enc16_eq, two_bytes (n := n) (by omega), number]
    omega

theorem decodeJog_encode {o : JogOps} {most : Nat} (small : most ≤ 32767) (ok : o.ok most = true) :
    decodeJog ([byte o.point] ++ enc16s o.distance) = some o := by
  obtain ⟨point, _, distance⟩ := JogOps.ok_iff.1 ok
  obtain ⟨a, b, bytes, value⟩ := signed_of_enc16s (v := o.distance) (by omega)
  simp [decodeJog, bytes, value, toNat_byte (n := o.point) (by omega)]

theorem decodeSetLine_encode {o : SetLineOps} (ok : (decide (o.line < 12) && decide (o.selector < 9)) = true) :
    decodeSetLine [byte o.line, byte o.selector, byte (LineParameter.code o.parameter), byte (Polarity.code o.polarity)]
      = some o := by
  simp only [Bool.and_eq_true, decide_eq_true_eq] at ok
  obtain ⟨line, selector⟩ := ok
  rw [decodeSetLine, parameter?_code, polarity?_code, toNat_byte (by omega), toNat_byte (by omega)]

theorem decodeSetOutput_encode {o : SetOutputOps} (ok : decide (o.line < 12) = true) :
    decodeSetOutput [byte o.line, byte (boolCode o.active)] = some o := by
  have line : o.line < 12 := of_decide_eq_true ok
  rw [decodeSetOutput, bool?_code, toNat_byte (by omega)]
  rfl

theorem decodeMask_encode (m : BitVec 32) :
    decodeMask (enc16 (m.toNat / 65536) ++ enc16 (m.toNat % 65536)) = some m := by
  have size := m.isLt
  have whole : m.toNat / 65536 * 65536 + m.toNat % 65536 = m.toNat := Nat.div_add_mod' _ _
  simp [decodeMask, enc16_eq, two_bytes (n := m.toNat / 65536) (by omega), two_bytes (n := m.toNat % 65536) (by omega),
    whole]

theorem decodeLimits_encode {l : Limits} (ok : Limits.ok l = true) :
    decodeLimits (enc16 l.liftCeiling ++ enc16 l.maxStep ++ [byte l.followWindow, byte l.arrivalBand, byte l.restBand]
      ++ enc16 l.contactLoad ++ enc16 l.jointLimit ++ [byte l.warnPercent, byte l.shareLimit] ++ enc16 l.stageTimeout)
      = some l := by
  obtain ⟨_, lift, _, step, _, follow, _, arrival, _, rest, _, load, _, joint, _, warn, _, share, _, stage⟩ :=
    Limits.ok_iff.1 ok
  simp [decodeLimits, enc16_eq, two_bytes (n := l.liftCeiling) (by omega), two_bytes (n := l.maxStep) (by omega),
    two_bytes (n := l.contactLoad) (by omega), two_bytes (n := l.jointLimit) (by omega),
    two_bytes (n := l.stageTimeout) (by omega), toNat_byte (n := l.followWindow) (by omega),
    toNat_byte (n := l.arrivalBand) (by omega), toNat_byte (n := l.restBand) (by omega),
    toNat_byte (n := l.warnPercent) (by omega), toNat_byte (n := l.shareLimit) (by omega)]

/-! ### Layouts of bodies, points and constraints -/

theorem decodeDefineBody_encode {o : DefineBodyOps} (ok : o.ok = true) :
    decodeDefineBody ([byte o.body, byte o.position, byte o.ll, byte o.lr, byte o.tl, byte o.tr,
      byte (Joint.code o.joint)] ++ encLimitOp o.side ++ encLimitOp o.end_ ++ encLimitOp o.twist) = some o := by
  obtain ⟨body, position, points, _, _, _⟩ := DefineBodyOps.ok_iff.1 ok
  simp only [DefineBodyOps.ok, Bool.and_eq_true] at ok
  obtain ⟨⟨⟨_, side⟩, end_⟩, twist⟩ := ok
  obtain ⟨s1, s0, sides, sideValue⟩ := limitOp_of_encLimitOp side
  obtain ⟨e1, e0, ends, endValue⟩ := limitOp_of_encLimitOp end_
  obtain ⟨t1, t0, twists, twistValue⟩ := limitOp_of_encLimitOp twist
  simp only [List.forall_mem_cons] at points
  obtain ⟨ll, lr, tl, tr, _⟩ := points
  simp [decodeDefineBody, sides, ends, twists, sideValue, endValue, twistValue, joint?_code,
    toNat_byte (n := o.body) (by omega), toNat_byte (n := o.position) (by omega), toNat_byte (n := o.ll) (by omega),
    toNat_byte (n := o.lr) (by omega), toNat_byte (n := o.tl) (by omega), toNat_byte (n := o.tr) (by omega)]

theorem decodeAddConstraint_encode {o : AddConstraintOps} (ok : o.ok = true) :
    decodeAddConstraint (encAddConstraint o) = some o := by
  obtain ⟨terms, limit, warn⟩ := o
  obtain ⟨count, points, _, _, most, _⟩ := AddConstraintOps.ok_iff.1 ok
  simp only [AddConstraintOps.ok, Bool.and_eq_true] at ok
  obtain ⟨_, warns⟩ := ok
  have back : ∀ n ∈ terms, (byte n).toNat = n := fun n hn => toNat_byte (Nat.lt_trans (points n hn) (by decide))
  have limits : two (byte (limit / 256)) (byte limit) = limit := two_bytes (Nat.lt_of_le_of_lt most (by decide))
  have pair : (byte 2).toNat = 2 := rfl
  have quad : (byte 4).toNat = 4 := rfl
  rcases count with two_ | four
  · obtain ⟨a, b, rfl⟩ := List.length_eq_two.1 two_
    simp only [List.forall_mem_cons] at back
    simp [decodeAddConstraint, encAddConstraint, enc16_eq, warnOp_encWarnOp warns, limits, back, pair]
  · obtain ⟨a, b, c, d, rfl⟩ := List.length_eq_four.1 four
    simp only [List.forall_mem_cons] at back
    simp [decodeAddConstraint, encAddConstraint, enc16_eq, warnOp_encWarnOp warns, limits, back, quad]

theorem decodeAmendConstraint_encode {o : AmendConstraintOps} (ok : o.ok = true) :
    decodeAmendConstraint ([byte o.constraint, byte (presence [o.limit.isSome, o.warn.isSome])]
      ++ enc16 (o.limit.getD 0) ++ [encWarnOp (o.warn.getD .default_)]) = some o := by
  obtain ⟨small, _, limits, _⟩ := AmendConstraintOps.ok_iff.1 ok
  simp only [AmendConstraintOps.ok, Bool.and_eq_true] at ok
  obtain ⟨_, warns⟩ := ok
  have mask : (byte (presence [o.limit.isSome, o.warn.isSome])).toNat = presence [o.limit.isSome, o.warn.isSome] :=
    toNat_byte (Nat.lt_trans (presence_lt _) (by simp))
  have limitBack : given (presence [o.limit.isSome, o.warn.isSome]) 0
      (two (byte (o.limit.getD 0 / 256)) (byte (o.limit.getD 0))) = o.limit :=
    given_two (testBit_presence _ _) fun n hn => Nat.lt_of_le_of_lt (limits n hn).2 (by decide)
  have warnBack : given (presence [o.limit.isSome, o.warn.isSome]) 1
      (warnOp (encWarnOp (o.warn.getD .default_))) = o.warn :=
    given_of_bit (testBit_presence _ _) fun v hv => by
      rw [hv] at warns ⊢
      exact warnOp_encWarnOp warns
  simp [decodeAmendConstraint, enc16_eq, mask, limitBack, warnBack, toNat_byte (n := o.constraint) (by omega)]

theorem decodeAmendPoint_encode {o : AmendPointOps} (ok : o.ok = true) :
    decodeAmendPoint (encAmendPoint o) = some o := by
  obtain ⟨_, _, addresses, deratings⟩ := AmendPointOps.ok_iff.1 ok
  have mask : (byte (presence [o.address.isSome, o.derated.isSome, o.inhibit.isSome])).toNat
      = presence [o.address.isSome, o.derated.isSome, o.inhibit.isSome] :=
    toNat_byte (Nat.lt_trans (presence_lt _) (by simp))
  have addressBack : given (presence [o.address.isSome, o.derated.isSome, o.inhibit.isSome]) 0
      (addressOp (encAddressOp (o.address.getD ⟨0, 0⟩))) = o.address :=
    given_of_bit (testBit_presence _ _) fun a ha => by
      rw [ha]
      exact addressOp_encAddressOp (AddressOp.ok_iff.2 (addresses a ha))
  have deratedBack : given (presence [o.address.isSome, o.derated.isSome, o.inhibit.isSome]) 1
      (two (byte (o.derated.getD 0 / 256)) (byte (o.derated.getD 0))) = o.derated :=
    given_two (testBit_presence _ _) fun n hn => Nat.lt_of_le_of_lt (deratings n hn).2 (by decide)
  have inhibitBack : givenCode (presence [o.address.isSome, o.derated.isSome, o.inhibit.isSome]) 2
      (bool? (byte (boolCode (o.inhibit.getD false)))) = some o.inhibit :=
    givenCode_of_bit (testBit_presence _ _) fun v hv => by
      rw [hv]
      exact bool?_code v
  simp [decodeAmendPoint, encAmendPoint, enc16_eq, mask, addressBack, deratedBack, inhibitBack]

/-- The presence mask of an AMEND-BODY (R183). -/
def amendBodyMask (o : AmendBodyOps) : Nat :=
  presence [o.position.isSome, o.joint.isSome, o.ll.isSome, o.lr.isSome, o.tl.isSome, o.tr.isSome, o.side.isSome,
    o.end_.isSome, o.twist.isSome]

theorem decodeAmendBody_encode {o : AmendBodyOps} (ok : o.ok = true) :
    decodeAmendBody (encAmendBody o) = some o := by
  obtain ⟨body, _, positions, points, _⟩ := AmendBodyOps.ok_iff.1 ok
  simp only [AmendBodyOps.ok, Bool.and_eq_true] at ok
  obtain ⟨⟨⟨_, side⟩, end_⟩, twist⟩ := ok
  have mask : two (byte (amendBodyMask o / 256)) (byte (amendBodyMask o)) = amendBodyMask o :=
    two_bytes (Nat.lt_trans (presence_lt _) (by simp))
  have positionBack : given (amendBodyMask o) 0 (byte (o.position.getD 0)).toNat = o.position :=
    given_toNat (testBit_presence _ _) fun n hn => Nat.lt_trans (positions n hn) (by decide)
  have jointBack : givenCode (amendBodyMask o) 1 (joint? (byte (Joint.code (o.joint.getD .none)))) = some o.joint :=
    givenCode_of_bit (testBit_presence _ _) fun v hv => by
      rw [hv]
      exact joint?_code v
  have llBack : given (amendBodyMask o) 2 (byte (o.ll.getD 0)).toNat = o.ll :=
    given_toNat (testBit_presence _ _) fun n hn => Nat.lt_trans (points n (.inl hn)) (by decide)
  have lrBack : given (amendBodyMask o) 3 (byte (o.lr.getD 0)).toNat = o.lr :=
    given_toNat (testBit_presence _ _) fun n hn => Nat.lt_trans (points n (.inr (.inl hn))) (by decide)
  have tlBack : given (amendBodyMask o) 4 (byte (o.tl.getD 0)).toNat = o.tl :=
    given_toNat (testBit_presence _ _) fun n hn => Nat.lt_trans (points n (.inr (.inr (.inl hn)))) (by decide)
  have trBack : given (amendBodyMask o) 5 (byte (o.tr.getD 0)).toNat = o.tr :=
    given_toNat (testBit_presence _ _) fun n hn => Nat.lt_trans (points n (.inr (.inr (.inr hn)))) (by decide)
  obtain ⟨s1, s0, sides, sideBack⟩ := given_limitOp side
  obtain ⟨e1, e0, ends, endBack⟩ := given_limitOp end_
  obtain ⟨t1, t0, twists, twistBack⟩ := given_limitOp twist
  have sideRead := sideBack (amendBodyMask o) 6 (testBit_presence _ _)
  have endRead := endBack (amendBodyMask o) 7 (testBit_presence _ _)
  have twistRead := twistBack (amendBodyMask o) 8 (testBit_presence _ _)
  have bytes : encAmendBody o = [byte o.body, byte (amendBodyMask o / 256), byte (amendBodyMask o),
      byte (o.position.getD 0), byte (o.ll.getD 0), byte (o.lr.getD 0), byte (o.tl.getD 0), byte (o.tr.getD 0),
      byte (Joint.code (o.joint.getD .none)), s1, s0, e1, e0, t1, t0] := by
    rw [encAmendBody, sides, ends, twists]
    rfl
  rw [bytes, decodeAmendBody]
  simp only [mask, positionBack, jointBack, llBack, lrBack, tlBack, trBack, sideRead, endRead, twistRead,
    toNat_byte (n := o.body) (Nat.lt_trans body (by decide)), Option.map_some]

end Sys2Proof.Machine

end

section

/-! Requests and their codes: what decoding an encoded request gives, and operands of a wrong length (R176, R186). -/
namespace Sys2Proof.Machine

/-! ### The length a layout takes (R186) -/

/-- The layout takes operands of one length alone. -/
def FixedLength {α : Type} (k : Nat) (dec : List Byte → Option α) : Prop := ∀ bs, bs.length ≠ k → dec bs = none

theorem FixedLength.length_eq {α : Type} {k : Nat} {dec : List Byte → Option α} (fixed : FixedLength k dec)
    {bs : List Byte} {o : α} (decodes : dec bs = some o) : bs.length = k :=
  by_contra fun other => Option.some_ne_none o (decodes.symm.trans (fixed bs other))

theorem decodeNone_fixed : FixedLength 0 decodeNone := fun bs other => by
  unfold decodeNone
  split
  · exact absurd rfl other
  · rfl

theorem decodeId_fixed : FixedLength 1 decodeId := fun bs other => by
  unfold decodeId
  split
  · exact absurd rfl other
  · rfl

theorem decodeSelect_fixed : FixedLength 2 decodeSelect := fun bs other => by
  unfold decodeSelect
  split
  · exact absurd rfl other
  · rfl

theorem decodeEnrol_fixed : FixedLength 2 decodeEnrol := fun bs other => by
  unfold decodeEnrol
  split
  · exact absurd rfl other
  · rfl

theorem decodeAmendPoint_fixed : FixedLength 5 decodeAmendPoint := fun bs other => by
  unfold decodeAmendPoint
  split
  · exact absurd rfl other
  · rfl

theorem decodeDefineBody_fixed : FixedLength 13 decodeDefineBody := fun bs other => by
  unfold decodeDefineBody
  split
  · exact absurd rfl other
  · rfl

theorem decodeAmendBody_fixed : FixedLength 15 decodeAmendBody := fun bs other => by
  unfold decodeAmendBody
  split
  · exact absurd rfl other
  · rfl

theorem decodeAddConstraint_fixed : FixedLength 8 decodeAddConstraint := fun bs other => by
  unfold decodeAddConstraint
  split
  · exact absurd rfl other
  · rfl

theorem decodeAmendConstraint_fixed : FixedLength 5 decodeAmendConstraint := fun bs other => by
  unfold decodeAmendConstraint
  split
  · exact absurd rfl other
  · rfl

theorem decodeStart_fixed : FixedLength 6 decodeStart := fun bs other => by
  unfold decodeStart
  split
  · exact absurd rfl other
  · rfl

theorem decodeAmendTravel_fixed : FixedLength 5 decodeAmendTravel := fun bs other => by
  unfold decodeAmendTravel
  split
  · exact absurd rfl other
  · rfl

theorem decodeJog_fixed : FixedLength 3 decodeJog := fun bs other => by
  unfold decodeJog
  split
  · exact absurd rfl other
  · rfl

theorem decodeSetLine_fixed : FixedLength 4 decodeSetLine := fun bs other => by
  unfold decodeSetLine
  split
  · exact absurd rfl other
  · rfl

theorem decodeSetOutput_fixed : FixedLength 2 decodeSetOutput := fun bs other => by
  unfold decodeSetOutput
  split
  · exact absurd rfl other
  · rfl

theorem decodeMask_fixed : FixedLength 4 decodeMask := fun bs other => by
  unfold decodeMask
  split
  · exact absurd rfl other
  · rfl

theorem decodeLimits_fixed : FixedLength 15 decodeLimits := fun bs other => by
  unfold decodeLimits
  split
  · exact absurd rfl other
  · rfl

/-! ### The layouts whose length varies (R186) -/

theorem decodeFind_eq_none {ops : List Byte} (noAddress : ∀ a, ops ≠ [0x00, a]) (noCorner : ∀ b c, ops ≠ [0x01, b, c]) :
    decodeFind ops = none := by
  unfold decodeFind
  split
  case h_1 form a =>
    exact if_neg fun zero => noAddress a (by rw [BitVec.eq_of_toNat_eq (y := 0x00#8) zero]; rfl)
  case h_2 form b c =>
    exact if_neg fun one => noCorner b c (by rw [BitVec.eq_of_toNat_eq (y := 0x01#8) one]; rfl)
  case h_3 => rfl

theorem decodeFormGroup_eq_none {ops : List Byte} (wrong : ∀ g n bs, ops = g :: n :: bs → bs.length ≠ n.toNat) :
    decodeFormGroup ops = none := by
  unfold decodeFormGroup
  split
  case h_1 g n bs => exact if_neg (wrong g n bs rfl)
  case h_2 => rfl

theorem decodeAddConstraint_eq_none {n : Byte} {rest : List Byte} (notTwo : n ≠ 2) (notFour : n ≠ 4) :
    decodeAddConstraint (n :: rest) = none := by
  unfold decodeAddConstraint
  split
  case h_2 => rfl
  case h_1 count a b c d l1 l0 w shape =>
    obtain ⟨rfl, _⟩ := List.cons.inj shape
    split
    case h_1 two_ => exact absurd (BitVec.eq_of_toNat_eq (y := 0x02#8) two_) notTwo
    case h_2 four => exact absurd (BitVec.eq_of_toNat_eq (y := 0x04#8) four) notFour
    case h_3 => rfl

/-! ### Codes (R186) -/

/-- A code outside the catalogue is UNKNOWN (R176, R186). -/
theorem decodeRequest_unknown {code : Byte} (outside : code.toNat ∉ requestCodes) (ops : List Byte) :
    decodeRequest code ops = .unknown code := by
  unfold decodeRequest
  split
  case h_47 => rfl
  all_goals next named => exact absurd (named ▸ by decide) outside

theorem requestCodes_subset_catalogue : requestCodes ⊆ catalogue.map (·.toNat) := by
  decide

theorem toNat_notMem_requestCodes {code : Byte} (outside : code ∉ catalogue) : code.toNat ∉ requestCodes := fun named => by
  obtain ⟨c, listed, same⟩ := List.mem_map.1 (requestCodes_subset_catalogue named)
  exact outside (BitVec.eq_of_toNat_eq same ▸ listed)

/-! ### What decoding an encoded request gives (R173, R186) -/

/-- The command is encoded with this code, in operands that fit a frame, and these decode to it. -/
def ReadsBack (code : Byte) (i : Instr) : Prop :=
  ∃ ops : List Byte, ops.length ≤ 40 ∧ encodeRequest i = some (code, ops) ∧ decodeRequest code ops = i

section requests

variable {α : Type} {ok : α → Bool} {ops : Carried α} {mk : Carried α → Instr} {code : Byte} {enc : α → List Byte}
  {dec : List Byte → Option α} {k : Nat}

/-- A request whose layout reads its own operands back, at any length that fits. -/
theorem readsBack_of_layout (wf : ops.wf ok = true) (encoded : ∀ o, encodeRequest (mk (.takes o)) = some (code, enc o))
    (decoded : ∀ bs, decodeRequest code bs = mk (carry (dec bs))) (inverse : ∀ {o}, ok o = true → dec (enc o) = some o)
    (short : ∀ o, ok o = true → (enc o).length ≤ 40) : ReadsBack code (mk ops) := by
  cases ops with
  | illFormed => exact absurd wf Bool.false_ne_true
  | takes o => exact ⟨enc o, short o wf, encoded o, by rw [decoded, inverse wf]; rfl⟩

/-- A request whose layout has one length reads back. -/
theorem readsBack_of_fixed (wf : ops.wf ok = true) (fixed : FixedLength k dec)
    (inverse : ∀ {o}, ok o = true → dec (enc o) = some o)
    (encoded : ∀ o, encodeRequest (mk (.takes o)) = some (code, enc o) := by intros; rfl)
    (decoded : ∀ bs, decodeRequest code bs = mk (carry (dec bs)) := by intros; rfl)
    (fits : k ≤ 40 := by decide) : ReadsBack code (mk ops) :=
  readsBack_of_layout wf encoded decoded inverse fun _ good => (fixed.length_eq (inverse good)).trans_le fits

/-- A request of a fixed length takes no operands of another (R176, R186). -/
theorem decodeRequest_of_length (fixed : FixedLength k dec)
    (decoded : ∀ bs, decodeRequest code bs = mk (carry (dec bs)) := by intros; rfl) :
    ∀ bs : List Byte, bs.length ≠ k → decodeRequest code bs = mk .illFormed := by
  intro bs other
  rw [decoded, fixed bs other]
  rfl

end requests

/-- A request without operands reads back. -/
theorem readsBack_of_no_operands {ops : Carried Unit} {mk : Carried Unit → Instr} {code : Byte}
    (wf : ops.wf (fun _ => true) = true)
    (encoded : ∀ o, encodeRequest (mk (.takes o)) = some (code, []) := by intros; rfl)
    (decoded : ∀ bs, decodeRequest code bs = mk (carry (decodeNone bs)) := by intros; rfl) : ReadsBack code (mk ops) :=
  readsBack_of_fixed wf decodeNone_fixed (fun _ => rfl) encoded decoded

/-- A request with one id reads back. -/
theorem readsBack_of_id {bound : Nat} {ops : Carried Nat} {mk : Carried Nat → Instr} {code : Byte}
    (wf : ops.wf (fun n => decide (n < bound)) = true)
    (encoded : ∀ n, encodeRequest (mk (.takes n)) = some (code, [byte n]) := by intros; rfl)
    (decoded : ∀ bs, decodeRequest code bs = mk (carry (decodeId bs)) := by intros; rfl)
    (small : bound ≤ 256 := by decide) : ReadsBack code (mk ops) :=
  readsBack_of_fixed wf decodeId_fixed (decodeId_byte small) encoded decoded

theorem readsBack_findPoint {ops : Carried FindOps} (wf : ops.wf FindOps.ok = true) : ReadsBack 0x16 (.findPoint ops) := by
  cases ops with
  | illFormed => exact absurd wf Bool.false_ne_true
  | takes o =>
    cases o with
    | byAddress a =>
      exact ⟨_, by simp, rfl, congrArg (fun o => Instr.findPoint (carry o)) (decodeFind_byAddress wf)⟩
    | byCorner b c =>
      exact ⟨_, by simp, rfl, congrArg (fun o => Instr.findPoint (carry o)) (decodeFind_byCorner wf)⟩

theorem readsBack_formGroup {ops : Carried FormGroupOps} (wf : ops.wf FormGroupOps.ok = true) :
    ReadsBack 0x40 (.formGroup ops) :=
  readsBack_of_layout wf (fun _ => rfl) (fun _ => rfl) decodeFormGroup_encode fun o ok => by
    obtain ⟨_, _, few, _⟩ := FormGroupOps.ok_iff.1 ok
    simp
    omega

end Sys2Proof.Machine

end

section

/-! The frames of the console port (R172 to R176, R182 to R186). -/
namespace Sys2Proof.Machine

/-! ### Every command by the way the console reads it (R172, R186) -/

/-- How a command stands to the console: a request of a code that reads back, the NOP without operands (which leaves
the last response, R174), a frame error, or an event that no frame makes. -/
inductive ConsoleForm : Instr → Prop
  | request {i : Instr} (code : Byte) (named : requestCode i = some code) (reads : ReadsBack code i) : ConsoleForm i
  | nop : ConsoleForm (.nop (.takes ()))
  | frameError (first : Byte) : ConsoleForm (.frameError first)
  | event {i : Instr} (unnamed : requestCode i = none) (unencoded : encodeRequest i = none) : ConsoleForm i

/-- Every well-formed command has its form, by the layout of its operands (R186). -/
theorem consoleForm_of_wf {i : Instr} (wf : i.wf = true) : ConsoleForm i := by
  cases i with
  | nop ops =>
    cases ops with
    | illFormed => exact absurd wf Bool.false_ne_true
    | takes _ => exact .nop
  | select ops => exact .request 0x01 rfl (readsBack_of_fixed wf decodeSelect_fixed decodeSelect_encode)
  | partReset ops => exact .request 0x02 rfl (readsBack_of_no_operands wf)
  | enrolPoint ops => exact .request 0x10 rfl (readsBack_of_fixed wf decodeEnrol_fixed decodeEnrol_encode)
  | bind ops => exact .request 0x11 rfl (readsBack_of_id wf)
  | retirePoint ops => exact .request 0x12 rfl (readsBack_of_id wf)
  | recaptureRest ops => exact .request 0x13 rfl (readsBack_of_id wf)
  | amendPoint ops =>
    exact .request 0x14 rfl (readsBack_of_fixed wf decodeAmendPoint_fixed decodeAmendPoint_encode)
  | readPoint ops => exact .request 0x15 rfl (readsBack_of_no_operands wf)
  | findPoint ops => exact .request 0x16 rfl (readsBack_findPoint wf)
  | defineBody ops =>
    exact .request 0x20 rfl (readsBack_of_fixed wf decodeDefineBody_fixed decodeDefineBody_encode)
  | amendBody ops =>
    exact .request 0x21 rfl (readsBack_of_fixed wf decodeAmendBody_fixed decodeAmendBody_encode)
  | retireBody ops => exact .request 0x22 rfl (readsBack_of_id wf)
  | readBody ops => exact .request 0x23 rfl (readsBack_of_id wf)
  | addConstraint ops =>
    exact .request 0x30 rfl (readsBack_of_fixed wf decodeAddConstraint_fixed decodeAddConstraint_encode)
  | amendConstraint ops =>
    exact .request 0x31 rfl (readsBack_of_fixed wf decodeAmendConstraint_fixed decodeAmendConstraint_encode)
  | retireConstraint ops => exact .request 0x32 rfl (readsBack_of_id wf)
  | readConstraint ops => exact .request 0x33 rfl (readsBack_of_id wf)
  | compile ops => exact .request 0x34 rfl (readsBack_of_no_operands wf)
  | releasePlan ops => exact .request 0x35 rfl (readsBack_of_no_operands wf)
  | readPlan ops => exact .request 0x36 rfl (readsBack_of_no_operands wf)
  | formGroup ops => exact .request 0x40 rfl (readsBack_formGroup wf)
  | start ops =>
    exact .request 0x41 rfl (readsBack_of_fixed wf decodeStart_fixed (decodeStart_encode (by decide)))
  | continue_ ops => exact .request 0x42 rfl (readsBack_of_id wf)
  | amendTravel ops =>
    exact .request 0x43 rfl (readsBack_of_fixed wf decodeAmendTravel_fixed (decodeAmendTravel_encode (by decide)))
  | hold ops => exact .request 0x44 rfl (readsBack_of_id wf)
  | resume ops => exact .request 0x45 rfl (readsBack_of_id wf)
  | disband ops => exact .request 0x46 rfl (readsBack_of_id wf)
  | readGroup ops => exact .request 0x47 rfl (readsBack_of_id wf)
  | jog ops =>
    exact .request 0x50 rfl (readsBack_of_fixed wf decodeJog_fixed (decodeJog_encode (by decide)))
  | jogCancel ops => exact .request 0x51 rfl (readsBack_of_no_operands wf)
  | stop ops => exact .request 0x52 rfl (readsBack_of_no_operands wf)
  | clearStop ops => exact .request 0x53 rfl (readsBack_of_no_operands wf)
  | readJog ops => exact .request 0x54 rfl (readsBack_of_no_operands wf)
  | setLine ops => exact .request 0x60 rfl (readsBack_of_fixed wf decodeSetLine_fixed decodeSetLine_encode)
  | setOutput ops =>
    exact .request 0x61 rfl (readsBack_of_fixed wf decodeSetOutput_fixed decodeSetOutput_encode)
  | readLines ops => exact .request 0x62 rfl (readsBack_of_no_operands wf)
  | linkReset ops => exact .request 0x70 rfl (readsBack_of_id wf)
  | readLink ops => exact .request 0x71 rfl (readsBack_of_id wf)
  | readAttention ops => exact .request 0x80 rfl (readsBack_of_no_operands wf)
  | clearAttention ops =>
    exact .request 0x81 rfl (readsBack_of_fixed wf decodeMask_fixed fun _ => decodeMask_encode _)
  | setEnables ops =>
    exact .request 0x82 rfl (readsBack_of_fixed wf decodeMask_fixed fun _ => decodeMask_encode _)
  | setLimits ops => exact .request 0x90 rfl (readsBack_of_fixed wf decodeLimits_fixed decodeLimits_encode)
  | lockLimits ops => exact .request 0x91 rfl (readsBack_of_no_operands wf)
  | readLimits ops => exact .request 0x92 rfl (readsBack_of_no_operands wf)
  | readIdentity ops => exact .request 0x93 rfl (readsBack_of_no_operands wf)
  | unknown code =>
    have outside : code.toNat ∉ requestCodes := by simpa [Instr.wf] using wf
    exact .request code rfl ⟨[], by decide, rfl, decodeRequest_unknown outside []⟩
  | frameError first => exact .frameError first
  | transactionDuringWait => exact .event rfl rfl
  | powerOn => exact .event rfl rfl
  | startUpWaitEnd => exact .event rfl rfl
  | poll => exact .event rfl rfl
  | probe => exact .event rfl rfl
  | allStop => exact .event rfl rfl
  | reply => exact .event rfl rfl
  | announce => exact .event rfl rfl
  | missedReply => exact .event rfl rfl
  | probeUnanswered => exact .event rfl rfl
  | ignoredFrame => exact .event rfl rfl
  | breakStart => exact .event rfl rfl
  | breakEnd => exact .event rfl rfl
  | rawLevelChange => exact .event rfl rfl
  | debounceTimerExpiry => exact .event rfl rfl
  | stageTimerExpiry => exact .event rfl rfl
  | jogTimerExpiry => exact .event rfl rfl
  | compilationComplete => exact .event rfl rfl
  | resetPinRelease => exact .event rfl rfl

/-- A well-formed request's operands fit a frame and decode to it (R182, R183, R186). -/
theorem decodeRequest_encodeRequest {i : Instr} {code : Byte} {ops : List Byte} (wf : i.wf = true)
    (encoded : encodeRequest i = some (code, ops)) : ops.length ≤ 40 ∧ decodeRequest code ops = i := by
  cases consoleForm_of_wf wf with
  | request _ _ reads =>
    obtain ⟨_, short, same, decoded⟩ := reads
    cases same.symm.trans encoded
    exact ⟨short, decoded⟩
  | nop =>
    cases encoded
    exact ⟨by decide, rfl⟩
  | frameError => exact nomatch encoded
  | event _ unencoded => exact nomatch unencoded.symm.trans encoded

/-- Each well-formed request is encoded with the code that R186 gives it. -/
theorem encodeRequest_of_requestCode {i : Instr} {code : Byte} (wf : i.wf = true) (named : requestCode i = some code)
    (noError : ∀ b, i ≠ .frameError b) : ∃ ops, ops.length ≤ 40 ∧ encodeRequest i = some (code, ops) := by
  cases consoleForm_of_wf wf with
  | request _ same reads =>
    obtain ⟨ops, short, encoded, _⟩ := reads
    cases same.symm.trans named
    exact ⟨ops, short, encoded⟩
  | nop => exact nomatch named
  | frameError first => exact absurd rfl (noError first)
  | event unnamed => exact nomatch unnamed.symm.trans named

/-- Operands of a length that a request does not take are ill-formed (R176, R186). -/
theorem decodeRequest_fixedRequests :
    ∀ r ∈ fixedRequests, ∀ ops : List Byte, ops.length ≠ r.2.1 → decodeRequest r.1 ops = r.2.2 := by
  simp only [fixedRequests, List.cons_append, List.nil_append, List.forall_mem_cons]
  exact ⟨decodeRequest_of_length decodeNone_fixed, decodeRequest_of_length decodeSelect_fixed,
    decodeRequest_of_length decodeNone_fixed, decodeRequest_of_length decodeEnrol_fixed,
    decodeRequest_of_length decodeId_fixed, decodeRequest_of_length decodeId_fixed,
    decodeRequest_of_length decodeId_fixed, decodeRequest_of_length decodeAmendPoint_fixed,
    decodeRequest_of_length decodeNone_fixed, decodeRequest_of_length decodeDefineBody_fixed,
    decodeRequest_of_length decodeAmendBody_fixed, decodeRequest_of_length decodeId_fixed,
    decodeRequest_of_length decodeId_fixed, decodeRequest_of_length decodeAddConstraint_fixed,
    decodeRequest_of_length decodeAmendConstraint_fixed, decodeRequest_of_length decodeId_fixed,
    decodeRequest_of_length decodeId_fixed, decodeRequest_of_length decodeNone_fixed,
    decodeRequest_of_length decodeNone_fixed, decodeRequest_of_length decodeNone_fixed,
    decodeRequest_of_length decodeStart_fixed, decodeRequest_of_length decodeId_fixed,
    decodeRequest_of_length decodeAmendTravel_fixed, decodeRequest_of_length decodeId_fixed,
    decodeRequest_of_length decodeId_fixed, decodeRequest_of_length decodeId_fixed,
    decodeRequest_of_length decodeId_fixed, decodeRequest_of_length decodeJog_fixed,
    decodeRequest_of_length decodeNone_fixed, decodeRequest_of_length decodeNone_fixed,
    decodeRequest_of_length decodeNone_fixed, decodeRequest_of_length decodeNone_fixed,
    decodeRequest_of_length decodeSetLine_fixed, decodeRequest_of_length decodeSetOutput_fixed,
    decodeRequest_of_length decodeNone_fixed, decodeRequest_of_length decodeId_fixed,
    decodeRequest_of_length decodeId_fixed, decodeRequest_of_length decodeNone_fixed,
    decodeRequest_of_length decodeMask_fixed, decodeRequest_of_length decodeMask_fixed,
    decodeRequest_of_length decodeLimits_fixed, decodeRequest_of_length decodeNone_fixed,
    decodeRequest_of_length decodeNone_fixed, decodeRequest_of_length decodeNone_fixed, List.forall_mem_nil _⟩

/-! ### Frames (R173) -/

/-- A frame built from a code and its operands is well formed, whatever follows it (R173). -/
theorem frameOperands?_requestFrame (code : Byte) {ops : List Byte} (short : ops.length ≤ 40) (after : List Byte) :
    frameOperands? code (byte ops.length) (ops ++ crc8 (code :: byte ops.length :: ops) :: after) = some ops := by
  have length : (byte ops.length).toNat = ops.length := toNat_byte (by omega)
  simp [frameOperands?, length, short]

/-- What is no well-formed frame has no operands (R173). -/
theorem frameOperands?_eq_none {first len : Byte} {rest : List Byte}
    (bad : rest = [] ∨ 40 < len.toNat ∨ rest.length ≤ len.toNat
      ∨ rest[len.toNat]? ≠ some (crc8 (first :: len :: rest.take len.toNat))) :
    frameOperands? first len rest = none := by
  unfold frameOperands?
  dsimp only
  split
  case h_1 => rfl
  case h_2 c after tail =>
    have at_ : rest[len.toNat]? = some c := by
      rw [← List.head?_drop, tail, List.head?_cons]
    have longer : len.toNat < rest.length := (List.getElem?_eq_some_iff.1 at_).1
    refine if_neg fun ⟨short, good⟩ => ?_
    rcases bad with rfl | long | few | wrong
    · exact Nat.not_lt_zero _ longer
    · omega
    · omega
    · exact wrong (good ▸ at_)

/-- A well-formed frame is the request that its code names, whatever follows it (R173, R176). -/
theorem decodeTransaction_requestFrame (code : Byte) (ops after : List Byte) (short : ops.length ≤ 40) :
    decodeTransaction (requestFrame code ops ++ after) = some (decodeRequest code ops) := by
  have frame : requestFrame code ops ++ after
      = code :: byte ops.length :: (ops ++ crc8 (code :: byte ops.length :: ops) :: after) := by simp [requestFrame]
  rw [frame, decodeTransaction, frameOperands?_requestFrame code short]

/-- Bytes that are no well-formed frame are a FRAME_ERROR (R173). -/
theorem decodeTransaction_of_bad {first len : Byte} {rest : List Byte} (bad : frameOperands? first len rest = none) :
    decodeTransaction (first :: len :: rest) = some (.frameError first) := by
  rw [decodeTransaction, bad]

/-- The command of a transaction joins the queue (R172). -/
theorem transaction_eq (s : State) {bytes : List Byte} {c : Instr} (command : decodeTransaction bytes = some c) :
    s.transaction bytes = { s with pending := s.pending ++ [c] } := by
  rw [State.transaction, command]

/-- Settles O59: requests by the layouts of their operands, frames by their length and CRC. -/
theorem consoleFrames : Obligations.ConsoleFrames := by
  refine ⟨?reads, fun i code wf named noError => encodeRequest_of_requestCode wf named noError, rfl,
    fun s _ _ => transaction_eq s, fun _ _ => rfl, fun _ _ _ => rfl, fun _ _ => ⟨rfl, rfl, rfl⟩,
    fun bs b => ⟨rfl, crc8_append_byte bs b⟩,
    ⟨rfl, fun _ => rfl, fun _ => rfl, fun _ _ _ bad => decodeTransaction_of_bad (frameOperands?_eq_none bad)⟩,
    decodeTransaction_requestFrame,
    fun _ ops outside => decodeRequest_unknown (toNat_notMem_requestCodes outside) ops,
    decodeRequest_fixedRequests, fun ops => ⟨?find, ?group, ?add⟩, rfl⟩
  case reads =>
    intro i code ops wf encoded
    obtain ⟨short, decoded⟩ := decodeRequest_encodeRequest wf encoded
    have frame := decodeTransaction_requestFrame code ops [] short
    rwa [List.append_nil, decoded] at frame
  case find =>
    intro noAddress noCorner
    exact congrArg (fun o => Instr.findPoint (carry o)) (decodeFind_eq_none noAddress noCorner)
  case group =>
    intro wrong
    exact congrArg (fun o => Instr.formGroup (carry o)) (decodeFormGroup_eq_none wrong)
  case add =>
    rintro n rest rfl notTwo notFour
    exact congrArg (fun o => Instr.addConstraint (carry o)) (decodeAddConstraint_eq_none notTwo notFour)

end Sys2Proof.Machine

end
